-- ==== Sys2Proof/Word.lean ====
section
/-! DEFINITION. The widths the spec gives to the block's data: register bytes, sample-memory addresses, command
words and primitive records. -/

namespace Sys2Proof

/-- One 8-bit unsigned byte (R7): register contents, wire bytes, operands `a` and `b`. -/
abbrev Byte := BitVec 8

/-- A byte address of sample memory, `ADDR_W` = 32 bits (R5, R47). -/
abbrev Addr := BitVec 32

/-- A command word of format C, 64 bits (R60). -/
abbrev CmdWord := BitVec 64

/-- A primitive record of format P, 12 bits: kind in bits 11..8, data in bits 7..0 (R67). -/
abbrev PrimWord := BitVec 12

end Sys2Proof
end

