-- ==== Sys2Proof/Config.lean ====
section
/-! DEFINITION. The implementation parameters of R5 as one configuration type, the reference set `P0` of R6, and
the values the spec leaves free. -/

namespace Sys2Proof

/-- The register-map part and the constant bytes of R5, one field per row of its table. `ADDR_W` is not a field: it
fixes the width of `Addr`. -/
structure Params where
  /-- `DEV_ADDR7` -/
  devAddr7 : BitVec 7
  /-- `ID_CONST` -/
  idConst : Byte
  /-- `REG_STATUS` -/
  regStatus : Byte
  /-- `REG_FIFO_SETUP` -/
  regFifoSetup : Byte
  /-- `REG_INT_SOURCE` -/
  regIntSource : Byte
  /-- `REG_ID` -/
  regId : Byte
  /-- `REG_DATA_CFG` -/
  regDataCfg : Byte
  /-- `REG_HP_CUTOFF` -/
  regHpCutoff : Byte
  /-- `REG_ORIENT_STATUS` -/
  regOrientStatus : Byte
  /-- `REG_ORIENT_CFG` -/
  regOrientCfg : Byte
  /-- `REG_ORIENT_COUNT` -/
  regOrientCount : Byte
  /-- `REG_ORIENT_BFZ` -/
  regOrientBfz : Byte
  /-- `REG_ORIENT_THS` -/
  regOrientThs : Byte
  /-- `REG_MOTION_CFG` -/
  regMotionCfg : Byte
  /-- `REG_TRANSIENT_CFG` -/
  regTransientCfg : Byte
  /-- `REG_TAP_CFG` -/
  regTapCfg : Byte
  /-- `REG_TAP_STATUS` -/
  regTapStatus : Byte
  /-- `REG_TAP_THSX` -/
  regTapThsX : Byte
  /-- `REG_TAP_THSY` -/
  regTapThsY : Byte
  /-- `REG_TAP_THSZ` -/
  regTapThsZ : Byte
  /-- `REG_TAP_TMLT` -/
  regTapTmlt : Byte
  /-- `REG_TAP_LTCY` -/
  regTapLtcy : Byte
  /-- `REG_TAP_WIND` -/
  regTapWind : Byte
  /-- `REG_ACT` -/
  regAct : Byte
  /-- `REG_CTRL_POWER` -/
  regCtrlPower : Byte
  /-- `REG_CTRL_PIN` -/
  regCtrlPin : Byte
  /-- `REG_CTRL_INT_EN` -/
  regCtrlIntEn : Byte
  /-- `REG_CTRL_INT_ROUTE` -/
  regCtrlIntRoute : Byte
  /-- `REG_OFF_X` -/
  regOffX : Byte
  /-- `REG_OFF_Y` -/
  regOffY : Byte
  /-- `REG_OFF_Z` -/
  regOffZ : Byte
  /-- `ACTIVE_MASK` -/
  activeMask : Byte
  /-- `DR_ENC[0..7]` -/
  drEnc : Vector (BitVec 3) 8
  /-- `DATA_CFG_BASE` -/
  dataCfgBase : Byte
  /-- `HP_CUTOFF_DEF` -/
  hpCutoffDef : Byte
  /-- `ORIENT_CFG_DEF` -/
  orientCfgDef : Byte
  /-- `ORIENT_COUNT_DEF` -/
  orientCountDef : Byte
  /-- `ORIENT_BFZ_DEF` -/
  orientBfzDef : Byte
  /-- `ORIENT_THS_DEF` -/
  orientThsDef : Byte
  /-- `MOTION_CFG_DEF` -/
  motionCfgDef : Byte
  /-- `TRANSIENT_CFG_DEF` -/
  transientCfgDef : Byte
  /-- `CTRL_POWER_DEF` -/
  ctrlPowerDef : Byte
  /-- `CTRL_PIN_DEF` -/
  ctrlPinDef : Byte
  /-- `OFF_X_DEF` -/
  offXDef : Byte
  /-- `OFF_Y_DEF` -/
  offYDef : Byte
  /-- `OFF_Z_DEF` -/
  offZDef : Byte
  /-- `FIFO_SETUP_OP` -/
  fifoSetupOp : Byte
  /-- `TAP_THSX_OP` -/
  tapThsXOp : Byte
  /-- `TAP_THSY_OP` -/
  tapThsYOp : Byte
  /-- `TAP_THSZ_OP` -/
  tapThsZOp : Byte
  /-- `TAP_TMLT_OP` -/
  tapTmltOp : Byte
  /-- `TAP_LTCY_OP` -/
  tapLtcyOp : Byte
  /-- `TAP_WIND_OP` -/
  tapWindOp : Byte
  /-- `FIFO_DEPTH`, the `N` of the drain in ENABLE_INT (R148) -/
  fifoDepth : Byte
  /-- `IRQ_PRIORITY`, whose width R5 leaves unspecified: any natural number (DESIGN CHOICE, assumption 11) -/
  irqPriority : Nat
  deriving DecidableEq, Repr

/-- The byte the bus supplies to a read that the environment component of the state does not script (R44: any 8-bit
value; a free value, assumption 2). The argument is the number of reads completed before. -/
opaque Config.freeByte : Nat → BitVec 8

/-- What GET_RATE answers while `rate` holds no value (R23, R152; a free value, assumption 2). The argument counts earlier draws, so that two
reads need not agree. -/
opaque Config.freeRate : Nat → BitVec 8

/-- What GET_FREQ answers while `freq_chz` holds no value (R23, R153; a free value, assumption 2). -/
opaque Config.freeFreq : Nat → BitVec 17

/-- `IRQ_PRIORITY`, which even the reference set leaves unfixed (R5, R6, R150). That it is a natural number is a
DESIGN CHOICE (assumption 11). -/
opaque Config.irqPriority : Nat

/-- The reference parameter set P0 of R6. DESIGN CHOICE (assumption 3): the value `params` has at reset. -/
def P0 : Params where
  devAddr7 := 0x1C
  idConst := 0x1A
  regStatus := 0x00
  regFifoSetup := 0x09
  regIntSource := 0x0C
  regId := 0x0D
  regDataCfg := 0x0E
  regHpCutoff := 0x0F
  regOrientStatus := 0x10
  regOrientCfg := 0x11
  regOrientCount := 0x12
  regOrientBfz := 0x13
  regOrientThs := 0x14
  regMotionCfg := 0x15
  regTransientCfg := 0x1D
  regTapCfg := 0x21
  regTapStatus := 0x22
  regTapThsX := 0x23
  regTapThsY := 0x24
  regTapThsZ := 0x25
  regTapTmlt := 0x26
  regTapLtcy := 0x27
  regTapWind := 0x28
  regAct := 0x2A
  regCtrlPower := 0x2B
  regCtrlPin := 0x2C
  regCtrlIntEn := 0x2D
  regCtrlIntRoute := 0x2E
  regOffX := 0x2F
  regOffY := 0x30
  regOffZ := 0x31
  activeMask := 0x01
  drEnc := #v[0, 1, 2, 3, 4, 5, 6, 7]
  dataCfgBase := 0x00
  hpCutoffDef := 0x00
  orientCfgDef := 0x80
  orientCountDef := 0x00
  orientBfzDef := 0x44
  orientThsDef := 0x84
  motionCfgDef := 0x00
  transientCfgDef := 0x00
  ctrlPowerDef := 0x00
  ctrlPinDef := 0x02
  offXDef := 0x00
  offYDef := 0x00
  offZDef := 0x00
  fifoSetupOp := 0x99
  tapThsXOp := 0x20
  tapThsYOp := 0x20
  tapThsZOp := 0x40
  tapTmltOp := 0x18
  tapLtcyOp := 0x28
  tapWindOp := 0x3C
  fifoDepth := 32
  irqPriority := Config.irqPriority

end Sys2Proof
end

