-- ==== Sys2Proof/Syntax.lean ====
section
/-! DEFINITION. The instructions: the eleven commands of R61 (format C) and the eight bus primitives of R67
(format P), one constructor for each row of the opcode table. -/

namespace Sys2Proof

/-- One row of the opcode table each. Operands are the fields of R60 and R67 at their own widths. -/
inductive Instr where
  /-- VERIFY_ID, `op` = 0x1 (R120). -/
  | verifyId
  /-- STARTUP, `op` = 0x2, `a` = rateCode, `b` = rangeCode (R124). -/
  | startup (a b : Byte)
  /-- STANDBY, `op` = 0x3 (R140). -/
  | standby
  /-- ENABLE_INT, `op` = 0x4, `a` = eventFlags, `b` = pinRouting (R142). -/
  | enableInt (a b : Byte)
  /-- READ_FIFO_LEN, `op` = 0x5 (R160). -/
  | readFifoLen
  /-- READ_FIFO, `op` = 0x6: `store` (false is the null sentinel), `a` = maxEntries, `dest` (R162). -/
  | readFifo (store : Bool) (a : Byte) (dest : Addr)
  /-- READ_TAP, `op` = 0x7 (R181). -/
  | readTap
  /-- READ_ORIENT, `op` = 0x8 (R182). -/
  | readOrient
  /-- READ_INT_SRC, `op` = 0x9 (R183). -/
  | readIntSrc
  /-- GET_RATE, `op` = 0xA (R152). -/
  | getRate
  /-- GET_FREQ, `op` = 0xB (R153). -/
  | getFreq
  /-- The primitive OPEN, kind 1 (R92). -/
  | busOpen
  /-- The primitive START, kind 2 (R94). -/
  | busStart
  /-- The primitive RESTART, kind 3 (R94). -/
  | busRestart
  /-- The primitive STOP, kind 4 (R94). -/
  | busStop
  /-- The primitive CLOSE, kind 5 (R92). -/
  | busClose
  /-- The primitive WR, kind 6, with the byte written (R94). -/
  | wr (data : Byte)
  /-- The primitive RDA (read with acknowledge), kind 7, with the byte the bus returned (R93). -/
  | rda (data : Byte)
  /-- The primitive RDN (read with not-acknowledge), kind 8, with the byte the bus returned (R93). -/
  | rdn (data : Byte)
  deriving DecidableEq, Repr

/-- True of the eleven commands of R61, false of the eight primitives of R67. -/
def Instr.isCommand : Instr → Bool
  | .verifyId => true
  | .startup _ _ => true
  | .standby => true
  | .enableInt _ _ => true
  | .readFifoLen => true
  | .readFifo _ _ _ => true
  | .readTap => true
  | .readOrient => true
  | .readIntSrc => true
  | .getRate => true
  | .getFreq => true
  | .busOpen => false
  | .busStart => false
  | .busRestart => false
  | .busStop => false
  | .busClose => false
  | .wr _ => false
  | .rda _ => false
  | .rdn _ => false

/-- A word on one of the two channels an instruction can arrive on: a 64-bit command word on the command channel
(R60) or a 12-bit record on the primitive channel (R67). -/
inductive ChannelWord where
  | command (w : CmdWord)
  | primitive (w : PrimWord)
  deriving DecidableEq, Repr

end Sys2Proof
end

