-- ==== Sys2Proof/WellFormed.lean ====
section
/-! DEFINITION. What a well-formed parameter set is (the constraints of R5) and what a well-formed instruction is.
Every operand of an instruction has the width of its field (R60, R62, R67), so a term of `Instr` cannot be ill formed
in itself; the checks that can fail are those on the parameter set. -/

namespace Sys2Proof

/-- Every operand value is legal (R62, R193) and has its field's width by its type: no term is refused. -/
def Instr.wellFormed : Instr → Bool
  | .verifyId => true
  | .startup _ _ => true
  | .standby => true
  | .enableInt _ _ => true
  | .readFifoLen => true
  | .readFifo _ _ _ => true
  | .readTap => true
  | .readOrient => true
  | .readIntSrc => true
  | .getRate => true
  | .getFreq => true
  | .busOpen => true
  | .busStart => true
  | .busRestart => true
  | .busStop => true
  | .busClose => true
  | .wr _ => true
  | .rda _ => true
  | .rdn _ => true

/-- R5, R6 note 1: every register address that the parameter set names, in the order of R5's table. -/
def Params.registers (p : Params) : List Byte :=
  [p.regStatus, p.regFifoSetup, p.regIntSource, p.regId, p.regDataCfg, p.regHpCutoff, p.regOrientStatus,
   p.regOrientCfg, p.regOrientCount, p.regOrientBfz, p.regOrientThs, p.regMotionCfg, p.regTransientCfg,
   p.regTapCfg, p.regTapStatus, p.regTapThsX, p.regTapThsY, p.regTapThsZ, p.regTapTmlt, p.regTapLtcy,
   p.regTapWind, p.regAct, p.regCtrlPower, p.regCtrlPin, p.regCtrlIntEn, p.regCtrlIntRoute, p.regOffX,
   p.regOffY, p.regOffZ]

/-- R5, R41: every register address is below 128. -/
def Params.addressesBelow128 (p : Params) : Bool := p.registers.all fun r => r.toNat < 128

/-- R5: the registers of one burst are consecutive addresses. -/
def Params.burstsConsecutive (p : Params) : Bool :=
  p.regHpCutoff == p.regDataCfg + 1 &&
  p.regOrientCount == p.regOrientCfg + 1 && p.regOrientBfz == p.regOrientCfg + 2 &&
  p.regOrientThs == p.regOrientCfg + 3 &&
  p.regTapThsY == p.regTapThsX + 1 && p.regTapThsZ == p.regTapThsX + 2 && p.regTapTmlt == p.regTapThsX + 3 &&
  p.regTapLtcy == p.regTapThsX + 4 && p.regTapWind == p.regTapThsX + 5 &&
  p.regCtrlPin == p.regCtrlPower + 1 && p.regCtrlIntRoute == p.regCtrlIntEn + 1 &&
  p.regOffY == p.regOffX + 1 && p.regOffZ == p.regOffX + 2

/-- R5: exactly one bit of `ACTIVE_MASK` is set. -/
def Params.activeMaskOneBit (p : Params) : Bool :=
  (List.range 8).any fun k => p.activeMask == (1 : Byte) <<< k

/-- R5: `ACTIVE_MASK & 0x38 == 0`, so the active bit lies outside the data-rate field. -/
def Params.activeMaskOutsideRate (p : Params) : Bool := p.activeMask &&& 0x38 == 0

/-- R5: the eight data-rate encodings are distinct. -/
def Params.ratesDistinct (p : Params) : Bool :=
  (List.range 8).all fun i => (List.range 8).all fun j =>
    i == j || p.drEnc.toList.getD i 0 != p.drEnc.toList.getD j 0

/-- R5: `FIFO_DEPTH` is 32. -/
def Params.fifoDepthIs32 (p : Params) : Bool := p.fifoDepth == 32

/-- The constraints R5 places on a parameter set, all of them that are about numbers. -/
def Params.wellFormed (p : Params) : Bool :=
  p.addressesBelow128 && p.burstsConsecutive && p.activeMaskOneBit && p.activeMaskOutsideRate &&
  p.ratesDistinct && p.fifoDepthIs32

end Sys2Proof
end

