-- ==== Sys2Proof/Decode.lean ====
section
/-! DEFINITION. Decoding of channel words (R60 to R65, R67), total and rejecting by name, and after it the encoder
written from the same tables. -/

namespace Sys2Proof

/-- Why a channel word names no instruction. The first three make a command word illegal (R64); the last two are the
primitive records that are never produced (R67). -/
inductive DecodeError where
  /-- `op` is 0x0 or 0xC..0xF (R61). -/
  | reservedOp (op : BitVec 4)
  /-- `rsv_hi` or `rsv_lo` is not 0 (R63). -/
  | reservedField
  /-- A field that the command does not use is not 0 (R63). -/
  | unusedField
  /-- A primitive kind of 0 or 9..15 (R67). -/
  | reservedKind (kind : BitVec 4)
  /-- Non-zero data on a kind that has no data (R67). -/
  | dataOnPlainKind (kind : BitVec 4)
  deriving DecidableEq, Repr

/-- `op`, bits 63..60 (R60). -/
def fieldOp (w : CmdWord) : BitVec 4 := w.extractLsb' 60 4
/-- `rsv_hi`, bits 59..57 (R60). -/
def fieldRsvHi (w : CmdWord) : BitVec 3 := w.extractLsb' 57 3
/-- `store`, bit 56 (R60). -/
def fieldStore (w : CmdWord) : BitVec 1 := w.extractLsb' 56 1
/-- `a`, bits 55..48 (R60). -/
def fieldA (w : CmdWord) : Byte := w.extractLsb' 48 8
/-- `b`, bits 47..40 (R60). -/
def fieldB (w : CmdWord) : Byte := w.extractLsb' 40 8
/-- `rsv_lo`, bits 39..32 (R60). -/
def fieldRsvLo (w : CmdWord) : Byte := w.extractLsb' 32 8
/-- `dest`, bits 31..0 (R60). -/
def fieldDest (w : CmdWord) : Addr := w.extractLsb' 0 32

/-- R63 for a command that uses no operand. -/
def noOperands (w : CmdWord) (i : Instr) : Except DecodeError Instr :=
  if fieldStore w = 0 ∧ fieldA w = 0 ∧ fieldB w = 0 ∧ fieldDest w = 0 then .ok i else .error .unusedField

/-- R63 for a command that uses `a` and `b` only. -/
def operandsAB (w : CmdWord) (i : Instr) : Except DecodeError Instr :=
  if fieldStore w = 0 ∧ fieldDest w = 0 then .ok i else .error .unusedField

/-- R63 for READ_FIFO, whose only unused field is `b`: with `store` = 0 it ignores `dest`, which may hold anything. -/
def operandsFifo (w : CmdWord) (i : Instr) : Except DecodeError Instr :=
  if fieldB w = 0 then .ok i else .error .unusedField

/-- The command decoder: R61 by the operation code, then R63's reserved and unused fields, then R64. -/
def decodeCommand (w : CmdWord) : Except DecodeError Instr :=
  if fieldOp w = 0 ∨ 0xC#4 ≤ fieldOp w then .error (.reservedOp (fieldOp w))
  else if fieldRsvHi w ≠ 0 ∨ fieldRsvLo w ≠ 0 then .error .reservedField
  else if fieldOp w = 0x1 then noOperands w .verifyId
  else if fieldOp w = 0x2 then operandsAB w (.startup (fieldA w) (fieldB w))
  else if fieldOp w = 0x3 then noOperands w .standby
  else if fieldOp w = 0x4 then operandsAB w (.enableInt (fieldA w) (fieldB w))
  else if fieldOp w = 0x5 then noOperands w .readFifoLen
  else if fieldOp w = 0x6 then operandsFifo w (.readFifo (fieldStore w == 1) (fieldA w) (fieldDest w))
  else if fieldOp w = 0x7 then noOperands w .readTap
  else if fieldOp w = 0x8 then noOperands w .readOrient
  else if fieldOp w = 0x9 then noOperands w .readIntSrc
  else if fieldOp w = 0xA then noOperands w .getRate
  else noOperands w .getFreq

/-- `kind`, bits 11..8 of a primitive record (R67). -/
def fieldKind (w : PrimWord) : BitVec 4 := w.extractLsb' 8 4
/-- `data`, bits 7..0 of a primitive record (R67). -/
def fieldData (w : PrimWord) : Byte := w.extractLsb' 0 8

/-- R67: a kind without data carries 0 in `data`. -/
def plainKind (w : PrimWord) (i : Instr) : Except DecodeError Instr :=
  if fieldData w = 0 then .ok i else .error (.dataOnPlainKind (fieldKind w))

/-- The decoder of primitive records (R67). -/
def decodePrimitive (w : PrimWord) : Except DecodeError Instr :=
  if fieldKind w = 1 then plainKind w .busOpen
  else if fieldKind w = 2 then plainKind w .busStart
  else if fieldKind w = 3 then plainKind w .busRestart
  else if fieldKind w = 4 then plainKind w .busStop
  else if fieldKind w = 5 then plainKind w .busClose
  else if fieldKind w = 6 then .ok (.wr (fieldData w))
  else if fieldKind w = 7 then .ok (.rda (fieldData w))
  else if fieldKind w = 8 then .ok (.rdn (fieldData w))
  else .error (.reservedKind (fieldKind w))

/-- The decoder of whatever arrives on a channel. -/
def decode : ChannelWord → Except DecodeError Instr
  | .command w => decodeCommand w
  | .primitive w => decodePrimitive w

/-- A command word from its fields, most significant first (R60). -/
def commandWord (op : BitVec 4) (store : Bool) (a b : Byte) (dest : Addr) : CmdWord :=
  op ++ 0#3 ++ (BitVec.ofBool store) ++ a ++ b ++ 0#8 ++ dest

/-- A primitive record from its fields (R67). -/
def primitiveWord (kind : BitVec 4) (data : Byte) : PrimWord := kind ++ data

/-- The encoder, from R61's operation codes and R67's kinds. -/
def encode : Instr → ChannelWord
  | .verifyId => .command (commandWord 0x1 false 0 0 0)
  | .startup a b => .command (commandWord 0x2 false a b 0)
  | .standby => .command (commandWord 0x3 false 0 0 0)
  | .enableInt a b => .command (commandWord 0x4 false a b 0)
  | .readFifoLen => .command (commandWord 0x5 false 0 0 0)
  | .readFifo store a dest => .command (commandWord 0x6 store a 0 dest)
  | .readTap => .command (commandWord 0x7 false 0 0 0)
  | .readOrient => .command (commandWord 0x8 false 0 0 0)
  | .readIntSrc => .command (commandWord 0x9 false 0 0 0)
  | .getRate => .command (commandWord 0xA false 0 0 0)
  | .getFreq => .command (commandWord 0xB false 0 0 0)
  | .busOpen => .primitive (primitiveWord 1 0)
  | .busStart => .primitive (primitiveWord 2 0)
  | .busRestart => .primitive (primitiveWord 3 0)
  | .busStop => .primitive (primitiveWord 4 0)
  | .busClose => .primitive (primitiveWord 5 0)
  | .wr d => .primitive (primitiveWord 6 d)
  | .rda d => .primitive (primitiveWord 7 d)
  | .rdn d => .primitive (primitiveWord 8 d)

/-- The command word that `cur_cmd` holds while a command runs (R22); 0 for a primitive, which is no command. -/
def encodeCommand (i : Instr) : CmdWord :=
  match encode i with
  | .command w => w
  | .primitive _ => 0

/-- A row of the opcode table of the command format: a word `w` selects it when `w & mask == match` (R63). -/
structure CommandRow where
  mnemonic : String
  mask : CmdWord
  pattern : CmdWord
  deriving DecidableEq, Repr

/-- The eleven rows of format C of the opcode table, in its order. -/
def commandRows : List CommandRow :=
  [⟨"VERIFY_ID", 0xFFFFFFFFFFFFFFFF, 0x1000000000000000⟩,
   ⟨"STARTUP", 0xFF0000FFFFFFFFFF, 0x2000000000000000⟩,
   ⟨"STANDBY", 0xFFFFFFFFFFFFFFFF, 0x3000000000000000⟩,
   ⟨"ENABLE_INT", 0xFF0000FFFFFFFFFF, 0x4000000000000000⟩,
   ⟨"READ_FIFO_LEN", 0xFFFFFFFFFFFFFFFF, 0x5000000000000000⟩,
   ⟨"READ_FIFO", 0xFE00FFFF00000000, 0x6000000000000000⟩,
   ⟨"READ_TAP", 0xFFFFFFFFFFFFFFFF, 0x7000000000000000⟩,
   ⟨"READ_ORIENT", 0xFFFFFFFFFFFFFFFF, 0x8000000000000000⟩,
   ⟨"READ_INT_SRC", 0xFFFFFFFFFFFFFFFF, 0x9000000000000000⟩,
   ⟨"GET_RATE", 0xFFFFFFFFFFFFFFFF, 0xA000000000000000⟩,
   ⟨"GET_FREQ", 0xFFFFFFFFFFFFFFFF, 0xB000000000000000⟩]

/-- R63: the word selects the row. -/
def CommandRow.selectedBy (r : CommandRow) (w : CmdWord) : Bool := w &&& r.mask == r.pattern

/-- The instruction that the opcode-table bits `w` stand for: a row of format P has 12 bits (given as 16), a row of
format C has 64. -/
def decodeTableWord (nbits w : Nat) : Option Instr :=
  if nbits ≤ 16 then
    if w < 2 ^ 12 then (decode (.primitive (BitVec.ofNat 12 w))).toOption else none
  else if w < 2 ^ 64 then (decode (.command (BitVec.ofNat 64 w))).toOption else none

end Sys2Proof
end

