-- ==== Sys2Proof/Machine/State.lean ====
section
/-! DEFINITION. The machine's state as plain data: the block's registers (R10 to R22), its channels (R4), and the
environment the spec puts behind them (R42 to R44, R150), with the reasons a step can stop and the state after
reset. -/

namespace Sys2Proof.Machine

/-- A primitive as it was carried out: the record of R67. For a read, `data` is the byte the bus returned. -/
inductive Prim where
  | busOpen
  | busStart
  | busRestart
  | busStop
  | busClose
  | wr (data : Byte)
  | rda (data : Byte)
  | rdn (data : Byte)
  deriving DecidableEq, Repr

/-- A record of the trace (R4, R66 to R68): a completed primitive, a sample-memory write, an interrupt arm, or a
response. -/
inductive Record where
  | prim (p : Prim)
  | mw (addr : Addr) (v : Byte)
  | arm
  | resp (code : Byte) (value : BitVec 32)
  deriving DecidableEq, Repr

/-- The sequencer's session state `sess` (R18). -/
inductive Sess where
  | closed
  | ready
  | waddr
  | wburst
  | rburst
  | rdone
  deriving DecidableEq, Repr

/-- The state `fsm` of the Device Configuration State Machine (R16). -/
inductive Fsm where
  | standby
  | configuring
  | active
  deriving DecidableEq, Repr

/-- One of the host interrupt controller's two lines, with the three things ARM acts on (R150). The two
lines as data, and a priority without a width, are a DESIGN CHOICE (assumption 11). -/
structure IrqLine where
  pending : Bool
  priority : Nat
  enabled : Bool
  deriving DecidableEq, Repr

/-- One queued sample of the device, in wire order (R45). -/
structure Sample where
  xh : Byte
  xl : Byte
  yh : Byte
  yl : Byte
  zh : Byte
  zl : Byte
  deriving DecidableEq, Repr

/-- Where the reference device stands in a bus transaction (95_test_vectors.md section 2). -/
inductive DevMode where
  | idle
  | addr
  | reg
  | data
  | read
  deriving DecidableEq, Repr

/-- The reference device of 95_test_vectors.md section 2, which satisfies the device contract (R43, R50). -/
structure RefDevice where
  regs : List Byte
  fifo : List Sample
  ptr : BitVec 7
  mode : DevMode
  fresh : Bool
  stream : Bool
  cur : List Byte
  deriving DecidableEq, Repr

/-- Who answers the block's reads: canned bytes in order, free bytes once they run out (R44), or the reference
device (DESIGN CHOICE, assumption 4). -/
inductive BusSource where
  | bytes (l : List Byte)
  | device (d : RefDevice)
  deriving DecidableEq, Repr

/-- The Bus Primitive Interface with the device behind it: the environment, not part of the block (R42).
`completes` is how many further primitives it completes before one never completes (R222); none means that it
completes every one. `held` is the exclusive handle that OPEN acquires and CLOSE releases (R92; whether it is held at reset is a
DESIGN CHOICE, assumption 4). `reads` counts the
reads completed. -/
structure Bus where
  source : BusSource
  completes : Option Nat
  held : Bool
  reads : Nat
  deriving DecidableEq, Repr

/-- Sample memory: the bytes written so far, by address. An address that is not listed holds no value (R47; the
spec gives the buffer no reset contents; DESIGN CHOICE, assumption 10). -/
abbrev Memory := List Host.Cell

/-- Why a machine stops with a fault. The block has none (R191, R199). -/
inductive Fault where
  /-- Raised by `State.loadSample`, the host's read of one byte of sample memory, where nothing has been written. No
  instruction reads sample memory (R56), so no step raises it. Safe: the model gives no value where the spec gives
  none. -/
  | unwrittenSample (addr : Addr)
  deriving DecidableEq, Repr

/-- Why a machine gives an instruction no meaning. -/
inductive Refusal where
  /-- Raised by `exec` for an instruction without a meaning; every instruction has one, so nothing raises it. -/
  | notModelled (mnemonic : String)
  /-- Raised by a framed operation in a session state that R107 does not list for it, and so by a command that opens a
  session when `sess` is not CLOSED, which no run reaches (R108; assumption 12). Safe: the spec asks for the refusal. -/
  | protocolViolation
  /-- Raised by `step` for a record on the primitive channel that is never produced: kind 0 or 9..15, or data on a
  kind without data (R67; assumption 13). Safe: a consumer that sees one may refuse. -/
  | reservedPrimitive
  deriving DecidableEq, Repr

/-- Everything the spec gives the machine. `params` is the configuration (R5), which no step changes. -/
@[ext]
structure State where
  /-- `rate` (R11) -/
  rate : Byte
  /-- `range` (R12) -/
  range : Byte
  /-- `freq_chz` (R13) -/
  freqChz : BitVec 17
  /-- Whether `rate`, `range` and `freq_chz` hold a value (R23); STARTUP writes the three together. -/
  cacheWritten : Bool
  /-- `present` (R14) -/
  present : Bool
  /-- `tap_status` (R15) -/
  tapStatus : Byte
  /-- Whether `tap_status` holds a value (R23). -/
  tapWritten : Bool
  /-- `orient_status` (R15) -/
  orientStatus : Byte
  /-- Whether `orient_status` holds a value (R23). -/
  orientWritten : Bool
  /-- `fsm` (R16) -/
  fsm : Fsm
  /-- `busy` (R17) -/
  busy : Bool
  /-- `upc`, the primitives the current command has completed (R17) -/
  upc : Nat
  /-- `sess` (R18) -/
  sess : Sess
  /-- `saved_act` (R19) -/
  savedAct : Byte
  /-- `fifo_f` (R20) -/
  fifoF : BitVec 6
  /-- `fifo_n` (R20) -/
  fifoN : BitVec 6
  /-- `samp_i` (R20) -/
  sampI : BitVec 6
  /-- `byte_k` (R20) -/
  byteK : BitVec 3
  /-- `irq_armed` (R21) -/
  irqArmed : Bool
  /-- `cur_cmd` (R22) -/
  curCmd : CmdWord
  /-- The byte of the last completed read, the pseudocode's `b` and `v` (R93, R180; DEDUCED, assumption 15). -/
  readByte : Byte
  /-- The records of all channels in order, oldest first (R4). -/
  trace : List Record
  /-- Sample memory (R47). -/
  mem : Memory
  /-- The command words the host offers, the one now on offer first (R60, R195). -/
  cmdIn : List CmdWord
  /-- A record placed on the primitive channel from outside the block (assumption 5). -/
  primIn : Option PrimWord
  /-- The reset input (R210). -/
  resetPin : Bool
  /-- The Bus Primitive Interface and the device (R42). -/
  bus : Bus
  /-- The first of the host interrupt controller's two lines (R150). -/
  lineA : IrqLine
  /-- The second line. -/
  lineB : IrqLine
  /-- How many free values the accessors have drawn (R23); the model's own counter (assumption 2). -/
  draws : Nat
  /-- The parameter set (R5). -/
  params : Params
  deriving DecidableEq, Repr

/-- The machine right after reset: R34's table, DESIGN CHOICE 0 where it says "no value" (assumption 1), with nothing
on offer, a bus that answers any byte and completes everything, and its handle not held (DESIGN CHOICE, assumption 4). -/
def State.reset : State where
  rate := 0
  range := 0
  freqChz := 0
  cacheWritten := false
  present := false
  tapStatus := 0
  tapWritten := false
  orientStatus := 0
  orientWritten := false
  fsm := .standby
  busy := false
  upc := 0
  sess := .closed
  savedAct := 0
  fifoF := 0
  fifoN := 0
  sampI := 0
  byteK := 0
  irqArmed := false
  curCmd := 0
  readByte := 0
  trace := []
  mem := []
  cmdIn := []
  primIn := none
  resetPin := false
  bus := { source := .bytes [], completes := none, held := false, reads := 0 }
  lineA := { pending := false, priority := 0, enabled := false }
  lineB := { pending := false, priority := 0, enabled := false }
  draws := 0
  params := P0

end Sys2Proof.Machine
end

