-- ==== Sys2Proof/Machine/Operands.lean ====
section
/-! DEFINITION. Operand values, wire bytes and register values (R69 to R78) and the address arithmetic of the FIFO
burst (R114, R167, R170). -/

namespace Sys2Proof.Machine

/-- `DEVW`, the address byte of the write direction (R69). -/
def devW (p : Params) : Byte := p.devAddr7 ++ 0#1

/-- `DEVR = DEVW | 0x01`, the address byte of the read direction (R69). -/
def devR (p : Params) : Byte := devW p ||| 0x01

/-- `RATE_100`, the code of 100 Hz (R72). -/
def rate100 : BitVec 3 := 3

/-- `EffRate(a)`: the code itself up to 7, the 100 Hz code for every other (R72). -/
def effRate (a : Byte) : BitVec 3 := if a ≤ 7 then a.setWidth 3 else rate100

/-- `FreqChz(k)`, in hundredths of a hertz (R73). -/
def freqOf (k : BitVec 3) : BitVec 17 :=
  match k.toNat with
  | 0 => 80000
  | 1 => 40000
  | 2 => 20000
  | 3 => 10000
  | 4 => 5000
  | 5 => 1250
  | 6 => 625
  | _ => 156

/-- `DR(k)`, the data-rate field's encoding of rate code `k` (R74). -/
def dataRate (p : Params) (k : BitVec 3) : BitVec 3 := p.drEnc[k.toNat]'k.isLt

/-- `ActStandby(k)`: the data-rate field at bits 5..3, the active bit clear (R74). -/
def actStandby (p : Params) (k : BitVec 3) : Byte := (dataRate p k).setWidth 8 <<< 3

/-- `ActActive(k)`: the same with the active bit set (R74, R135). -/
def actActive (p : Params) (k : BitVec 3) : Byte := actStandby p k ||| p.activeMask

/-- `RangeEnc(b)`: 0, 1, 2 as they are, the encoding of ±4g for every other code (R76). -/
def rangeEnc (b : Byte) : BitVec 2 := if b ≤ 2 then b.setWidth 2 else 1

/-- `DataCfg(b)` (R75). -/
def dataCfg (p : Params) (b : Byte) : Byte := (p.dataCfgBase &&& 0xFC) ||| (rangeEnc b).setWidth 8

/-- The FIFO count of a status byte, its low 6 bits (R78). -/
def fifoCount (status : Byte) : BitVec 6 := status.setWidth 6

/-- `min(f, N)`, which fits 6 bits (R170). -/
def minCount (f : BitVec 6) (n : Byte) : BitVec 6 := if f.toNat ≤ n.toNat then f else n.setWidth 6

/-- The address of wire byte `k` of sample `i`: `dest + 6*i + (k ^ 1)` modulo 2^32 (R47, R167). -/
def sampleAddr (dest : Addr) (i : BitVec 6) (k : BitVec 3) : Addr :=
  dest + BitVec.ofNat 32 (6 * i.toNat + (k ^^^ 1).toNat)

/-- The 16-bit axis value of a stored low and high byte (R46). -/
def axis16 (lo hi : Byte) : BitVec 16 := hi ++ lo

/-- The signed 14-bit acceleration of a left-justified axis value, `sext_16(a16)[15:2]` (R46). It is the host's
reading of the buffer; no instruction computes it. -/
def accel14 (a16 : BitVec 16) : Int := (a16.extractLsb' 2 14).toInt

end Sys2Proof.Machine
end

