-- ==== Sys2Proof/Machine/Device.lean ====
section
/-! DEFINITION. The device behind the bus: the reference device of 95_test_vectors.md section 2, and the device
contract's reading of a bus trace as register writes (R43). Nothing here is part of the block (R33, R42). -/

namespace Sys2Proof.Machine

/-- The six bytes of a sample in wire order (R45). -/
def Sample.wire (x : Sample) : List Byte := [x.xh, x.xl, x.yh, x.yl, x.zh, x.zl]

/-- The reference device at its creation: every register 0 but the identification register, the FIFO empty. Its `ptr`,
`mode`, `fresh`, `stream` and `cur` at creation are a DESIGN CHOICE (assumption 21). -/
def RefDevice.fresh0 (p : Params) : RefDevice where
  regs := (List.replicate 128 0).set p.regId.toNat p.idConst
  fifo := []
  ptr := 0
  mode := .idle
  fresh := false
  stream := false
  cur := []

/-- The value of the register under the device's pointer. -/
def RefDevice.atPtr (d : RefDevice) : Byte := d.regs.getD d.ptr.toNat 0

/-- Whether the device's pointer stands at register `r`. -/
def RefDevice.pointsAt (d : RefDevice) (r : Byte) : Bool := d.ptr.setWidth 8 == r

/-- Whether a read of register `r` clears it (R50). -/
def clearsOnRead (p : Params) (d : RefDevice) : Bool :=
  d.pointsAt p.regTapStatus || d.pointsAt p.regOrientStatus || d.pointsAt p.regIntSource

/-- A read in mode READ: the byte the device returns and the device after it. The first byte of a burst at
`REG_STATUS` is the FIFO count, the following ones stream the queued samples, which removes them (R43, R50). -/
def RefDevice.readBurst (p : Params) (d : RefDevice) : Byte × RefDevice :=
  if d.fresh && d.pointsAt p.regStatus then
    (BitVec.ofNat 8 d.fifo.length, { d with fresh := false, stream := true })
  else if d.stream then
    match d.cur, d.fifo with
    | b :: rest, _ => (b, { d with fresh := false, cur := rest })
    | [], x :: fifo => (x.xh, { d with fresh := false, fifo := fifo, cur := x.wire.tail })
    | [], [] => (0, { d with fresh := false })
  else
    (d.atPtr,
      { d with
        fresh := false
        regs := if clearsOnRead p d then d.regs.set d.ptr.toNat 0 else d.regs
        ptr := d.ptr + 1 })

/-- The byte the device supplies to a read; it supplies none outside mode READ. -/
def RefDevice.supply? (p : Params) (d : RefDevice) : Option Byte :=
  if d.mode = .read then some (d.readBurst p).1 else none

/-- A byte written to the device: its bus address, a register address, or data with auto-increment (R43). -/
def RefDevice.write (p : Params) (b : Byte) (d : RefDevice) : RefDevice :=
  match d.mode with
  | .addr =>
    if b = devW p then { d with mode := .reg }
    else if b = devR p then { d with mode := .read, fresh := true }
    else { d with mode := .idle }
  | .reg => { d with ptr := b.setWidth 7, mode := .data }
  | .data => { d with regs := d.regs.set d.ptr.toNat b, ptr := d.ptr + 1 }
  | .idle => d
  | .read => d

/-- What a completed primitive does to the reference device. -/
def RefDevice.onPrim (p : Params) (q : Prim) (d : RefDevice) : RefDevice :=
  match q with
  | .busOpen => d
  | .busClose => d
  | .busStart => { d with mode := .addr, stream := false, cur := [] }
  | .busRestart => { d with mode := .addr, stream := false, cur := [] }
  | .busStop => { d with mode := .idle }
  | .wr b => d.write p b
  | .rda _ => if d.mode = .read then (d.readBurst p).2 else d
  | .rdn _ => if d.mode = .read then (d.readBurst p).2 else d

/-- The test-bench event `inject`: a sample is queued unless the FIFO is full. -/
def RefDevice.inject (p : Params) (x : Sample) (d : RefDevice) : RefDevice :=
  if d.fifo.length < p.fifoDepth.toNat then { d with fifo := d.fifo ++ [x] } else d

/-- The test-bench event `latch`: bits of a register are set. -/
def RefDevice.latch (reg bits : Byte) (d : RefDevice) : RefDevice :=
  { d with regs := d.regs.set reg.toNat (d.regs.getD reg.toNat 0 ||| bits) }

/-- The device's power state: active when the active bit of `REG_ACT` is set (R204). -/
def RefDevice.powered (p : Params) (d : RefDevice) : Bool :=
  d.regs.getD p.regAct.toNat 0 &&& p.activeMask != 0

/-- Where a listener on the bus stands who reads it by the device contract (R43): outside an addressed operation,
expecting a bus address, expecting a register address, or in a burst with the pointer at a register. -/
inductive Listen where
  | idle
  | addr
  | reg
  | burst (r : Byte)
  deriving DecidableEq, Repr

/-- The register writes a list of primitives performs by the device contract (R43): the data byte number `k` after
`AddrWrite(r)` goes to register `r + k`. -/
def registerWrites (p : Params) : Listen → List Prim → List (Byte × Byte)
  | _, [] => []
  | _, .busStart :: l => registerWrites p .addr l
  | _, .busRestart :: l => registerWrites p .addr l
  | _, .busStop :: l => registerWrites p .idle l
  | m, .busOpen :: l => registerWrites p m l
  | m, .busClose :: l => registerWrites p m l
  | m, .rda _ :: l => registerWrites p m l
  | m, .rdn _ :: l => registerWrites p m l
  | .idle, .wr _ :: l => registerWrites p .idle l
  | .addr, .wr b :: l => registerWrites p (if b = devW p then .reg else .idle) l
  | .reg, .wr b :: l => registerWrites p (.burst b) l
  | .burst r, .wr b :: l => (r, b) :: registerWrites p (.burst (r + 1)) l

end Sys2Proof.Machine
end

