-- ==== Sys2Proof/Machine/Ops.lean ====
section
/-! DEFINITION. The named operations over sample memory, the bus and the registers that every meaning is built from,
with the one exception (R190) and the reset input (R210). -/

namespace Sys2Proof.Machine

/-- The byte of sample memory at an address, none where nothing has been written. -/
def memRead : Memory → Nat → Option Byte
  | [], _ => none
  | (k, v) :: m, a => if k = a then some v else memRead m a

/-- Sample memory with one byte stored, the list kept in order of address (R47). -/
def memWrite : Memory → Nat → Byte → Memory
  | [], a, v => [(a, v)]
  | (k, w) :: m, a, v =>
    if a < k then (a, v) :: (k, w) :: m
    else if a = k then (a, v) :: m
    else (k, w) :: memWrite m a v

/-- Addresses rise strictly from `lo` on and stay below 2^32. -/
def memSorted : Nat → Memory → Bool
  | _, [] => true
  | lo, (k, _) :: m => decide (lo ≤ k) && decide (k < 2 ^ 32) && memSorted (k + 1) m

/-- The canonical form of sample memory. An unlisted address holds no value, so no entry can equal what it reads
as. -/
def Memory.wf (m : Memory) : Bool := memSorted 0 m

/-- The host's view of one byte of sample memory. -/
def State.sampleByte (s : State) (a : Addr) : Option Byte := memRead s.mem a.toNat

/-- The host's read of one byte of sample memory, a fault where nothing has been written (R56: no instruction
reads it). -/
def State.loadSample (s : State) (a : Addr) : Except Fault Byte :=
  match s.sampleByte a with
  | some v => .ok v
  | none => .error (.unwrittenSample a)

/-- Whether the bus completes the next primitive it is given (R222). -/
def Bus.live (b : Bus) : Bool := b.completes != some 0

/-- The byte the bus supplies to the next read: any 8-bit value (R44), taken from the environment where it scripts
one. -/
def Bus.supply (p : Params) (b : Bus) : Byte :=
  match b.source with
  | .bytes (v :: _) => v
  | .bytes [] => Config.freeByte b.reads
  | .device d => (d.supply? p).getD (Config.freeByte b.reads)

/-- Whether a primitive is one of the two reads. -/
def Prim.isRead : Prim → Bool
  | .busOpen => false
  | .busStart => false
  | .busRestart => false
  | .busStop => false
  | .busClose => false
  | .wr _ => false
  | .rda _ => true
  | .rdn _ => true

/-- Who answers reads, after a primitive has completed. -/
def BusSource.after (p : Params) (q : Prim) : BusSource → BusSource
  | .bytes l => .bytes (if q.isRead then l.tail else l)
  | .device d => .device (d.onPrim p q)

/-- The exclusive handle after a primitive has completed: OPEN acquires it, CLOSE releases it (R92). OPEN of a held handle
leaves it held and CLOSE of a free one leaves it free (DESIGN CHOICE, assumption 24). -/
def Prim.handle (q : Prim) (held : Bool) : Bool :=
  match q with
  | .busOpen => true
  | .busClose => false
  | .busStart => held
  | .busRestart => held
  | .busStop => held
  | .wr _ => held
  | .rda _ => held
  | .rdn _ => held

/-- The bus after it has completed a primitive. -/
def Bus.after (p : Params) (q : Prim) (b : Bus) : Bus where
  source := b.source.after p q
  completes := b.completes.map (· - 1)
  held := q.handle b.held
  reads := if q.isRead then b.reads + 1 else b.reads

/-- The byte a completed read returned to the block; other primitives return nothing (R91). -/
def Prim.returned (q : Prim) (old : Byte) : Byte :=
  match q with
  | .rda v => v
  | .rdn v => v
  | .busOpen => old
  | .busStart => old
  | .busRestart => old
  | .busStop => old
  | .busClose => old
  | .wr _ => old

/-- A primitive completes: its record is appended and, within a command, `upc` advances by one (R17, R91). -/
def completePrim (q : Prim) (s : State) : State :=
  { s with
    trace := s.trace ++ [.prim q]
    upc := if s.busy then s.upc + 1 else s.upc
    readByte := q.returned s.readByte
    bus := s.bus.after s.params q }

/-- A primitive issued on the primitive channel: it completes, or the block waits at it, nothing appended (R91,
R222). -/
def issuePrim (q : Prim) (s : State) : State := if s.bus.live then completePrim q s else s

/-- `MemWrite(addr, 1, v)`: one byte stored and its record appended (R8, R47, R68). -/
def storeSample (a : Addr) (v : Byte) (s : State) : State :=
  { s with mem := memWrite s.mem a.toNat v, trace := s.trace ++ [.mw a v] }

/-- `Respond(code, value)`: the response record, which ends the command (R8, R17, R66). -/
def respond (code : Byte) (value : BitVec 32) (s : State) : State :=
  { s with trace := s.trace ++ [.resp code value], busy := false, upc := 0 }

/-- Taking the one exception, `IllegalCommand` (R64, R190): `Respond(1, 0)`, no primitive, and of the registers only
`cur_cmd` (the word) and `busy`, which comes back to 0. There is no return from it (R200). -/
def raiseIllegalCommand (w : CmdWord) (s : State) : State :=
  respond 1 0 { s with busy := true, upc := 0, curCmd := w }

/-- Acceptance of a command: `busy` rises and the word is copied to `cur_cmd` (R17, R22, R60). -/
def accept (i : Instr) (s : State) : State := { s with busy := true, upc := 0, curCmd := encodeCommand i }

/-- What ARM asks of one interrupt line: clear the pending flag, set the priority, enable (R150). -/
def IrqLine.arm (p : Params) (_ : IrqLine) : IrqLine :=
  { pending := false, priority := p.irqPriority, enabled := true }

/-- `ArmIrq(); irq_armed <- 1`, each of the two lines in turn (R150). -/
def armIrq (s : State) : State :=
  { s with
    trace := s.trace ++ [.arm]
    irqArmed := true
    lineA := s.lineA.arm s.params
    lineB := s.lineB.arm s.params }

/-- `rate` as GET_RATE reads it: the register, or any value while it holds none (R23, R152). -/
def State.rateRead (s : State) : Byte := if s.cacheWritten then s.rate else Config.freeRate s.draws

/-- `freq_chz` as GET_FREQ reads it (R23, R153). -/
def State.freqRead (s : State) : BitVec 17 := if s.cacheWritten then s.freqChz else Config.freeFreq s.draws

/-- The bus after a reset: the device is not touched, but after a reset during a command nothing is known of what it
will answer (R212, R213; DESIGN CHOICE, assumption 9). -/
def Bus.afterReset (busy : Bool) (b : Bus) : Bus :=
  if busy then { b with source := .bytes [] } else b

/-- The reset input: every register of the block takes R34's value at once and nothing is emitted; device, interrupt
controller, sample memory and channels stay (R210 to R213). -/
def applyReset (s : State) : State :=
  { s with
    rate := 0
    range := 0
    freqChz := 0
    cacheWritten := false
    present := false
    tapStatus := 0
    tapWritten := false
    orientStatus := 0
    orientWritten := false
    fsm := .standby
    busy := false
    upc := 0
    sess := .closed
    savedAct := 0
    fifoF := 0
    fifoN := 0
    sampI := 0
    byteK := 0
    irqArmed := false
    curCmd := 0
    readByte := 0
    resetPin := false
    bus := s.bus.afterReset s.busy }

end Sys2Proof.Machine
end

