-- ==== Sys2Proof/Machine/Flags.lean ====
section
/-! DEFINITION. The one-bit state (R25) and the status outputs (R24). The block has no arithmetic condition codes. -/

namespace Sys2Proof.Machine

/-- `present` after VERIFY_ID read `v`: all eight bits compared with `ID_CONST` (R14, R120). -/
def presentAfter (p : Params) (v : Byte) : Bool := v == p.idConst

/-- `fsm` as its 2-bit code; 3 is never held (R16). -/
def Fsm.code : Fsm → BitVec 2
  | .standby => 0
  | .configuring => 1
  | .active => 2

/-- The status outputs of R24. A register that holds no value shows none (R23: the value is unspecified). -/
structure StatusOutputs where
  busy : Bool
  fsm : BitVec 2
  present : Bool
  irqArmed : Bool
  rate : Option Byte
  range : Option Byte
  freqChz : Option (BitVec 17)
  tapStatus : Option Byte
  orientStatus : Option Byte
  deriving DecidableEq, Repr

/-- What the host observes without a command (R24). -/
def State.statusOutputs (s : State) : StatusOutputs where
  busy := s.busy
  fsm := s.fsm.code
  present := s.present
  irqArmed := s.irqArmed
  rate := if s.cacheWritten then some s.rate else none
  range := if s.cacheWritten then some s.range else none
  freqChz := if s.cacheWritten then some s.freqChz else none
  tapStatus := if s.tapWritten then some s.tapStatus else none
  orientStatus := if s.orientWritten then some s.orientStatus else none

end Sys2Proof.Machine
end

