-- ==== Sys2Proof/Machine/Micro.lean ====
section
/-! DEFINITION. The alphabet a command is written in: the framed operations of R100 to R106, the block's own actions
between them, and the micro-steps both expand to, at most one primitive each. -/

namespace Sys2Proof.Machine

/-- The acknowledge selector of a read (R8, R93): always, never, or decided by the status byte of a FIFO burst with
`N` = `n` (R164). -/
inductive Sel where
  | ack
  | nack
  | fifoStatus (n : Byte)
  deriving DecidableEq, Repr

/-- A framed operation (R100 to R106). `writeSavedAct` is `WriteData(saved_act)`, whose byte is a register. -/
inductive Framed where
  | sessOpen
  | addrWrite (reg : Byte)
  | addrRead (reg : Byte)
  | writeData (b : Byte)
  | writeSavedAct
  | readData (sel : Sel)
  | reopen
  | sessClose
  deriving DecidableEq, Repr

/-- The value of a response record (R66). -/
inductive RespValue where
  | zero
  | present
  | readByte
  | fifoF
  | fifoN
  | rate
  | freq
  deriving DecidableEq, Repr

/-- What a command does between framed operations; none of these issues a primitive. -/
inductive Action where
  /-- `sess <- x` (R100 to R106) -/
  | setSess (x : Sess)
  /-- `fsm <- x` (R125, R134, R140) -/
  | setFsm (x : Fsm)
  /-- Step (6) of STARTUP (R131, R132) -/
  | cacheConfig (a b : Byte)
  /-- `present <- (v == ID_CONST)` (R120) -/
  | latchPresent
  /-- `tap_status <- v` (R181) -/
  | latchTap
  /-- `orient_status <- v` (R182) -/
  | latchOrient
  /-- `saved_act <- v` (R143) -/
  | saveAct
  /-- `fifo_f <- s & 0x3F` (R160) -/
  | latchFifoLen
  /-- `fifo_f <- s & 0x3F; fifo_n <- min(fifo_f, N)` and the first sample byte is next (R164) -/
  | latchFifoStatus (n : Byte)
  /-- `ArmIrq(); irq_armed <- 1` (R150) -/
  | arm
  /-- `Respond(0, v)` (R66) -/
  | reply (v : RespValue)
  deriving DecidableEq, Repr

/-- A line of a command's pseudocode. -/
inductive Line where
  | op (f : Framed)
  | act (e : Action)
  /-- The loop over the `6 * fifo_n` sample bytes of R164. -/
  | samples (store : Bool) (dest : Addr)
  deriving DecidableEq, Repr

/-- A micro-step: at most one primitive with what follows its completion, or an action. -/
inductive Micro where
  /-- A primitive whose record is known before it is issued. -/
  | issue (q : Prim)
  /-- `WR(saved_act)` -/
  | writeSaved
  /-- `ReadData(sel)` (R104) -/
  | read (sel : Sel)
  /-- The `6 * fifo_n` sample bytes of a FIFO burst, one read each (R164). -/
  | burst (store : Bool) (dest : Addr)
  /-- The last `n` sample bytes of a FIFO burst. -/
  | sampleReads (n : Nat) (store : Bool) (dest : Addr)
  | act (e : Action)
  deriving DecidableEq, Repr

end Sys2Proof.Machine
end

