-- ==== Sys2Proof/Machine/Sequencer.lean ====
section
/-! DEFINITION. The Transaction Sequencer (40_sequencer.md): the framed operations as micro-steps, the session
protocol of R107, and the runner that carries out a command's micro-steps up to its response or to a primitive that
the bus does not complete. -/

namespace Sys2Proof.Machine

/-- The selector's choice for the byte `v` just supplied: true is not-acknowledge (R93, R166). -/
def Sel.nacks (sel : Sel) (v : Byte) : Bool :=
  match sel with
  | .ack => false
  | .nack => true
  | .fifoStatus n => minCount (fifoCount v) n == 0

/-- The read primitive that returns `v` (R93). -/
def readPrim (nack : Bool) (v : Byte) : Prim := if nack then .rdn v else .rda v

/-- A completed `ReadData`: RDONE after a not-acknowledged byte, else the burst goes on (R104). -/
def completeRead (nack : Bool) (s : State) : State :=
  let s' := completePrim (readPrim nack (s.bus.supply s.params)) s
  if nack then { s' with sess := .rdone } else s'

/-- `ReadData(sel)` once the bus completes it (R93, R104). -/
def readData (sel : Sel) (s : State) : State := completeRead (sel.nacks (s.bus.supply s.params)) s

/-- Whether the byte now due is the last of the burst (R164). -/
def State.lastSampleByte (s : State) : Bool := s.sampI == s.fifoN - 1 && s.byteK == 5

/-- The loop counters after one sample byte (R164; what they hold after the last is a DESIGN CHOICE, assumption 8). -/
def nextSampleByte (s : State) : State :=
  if s.byteK = 5 then { s with sampI := s.sampI + 1, byteK := 0 } else { s with byteK := s.byteK + 1 }

/-- One sample byte: read, acknowledged unless it is the last, and stored before the next primitive (R49, R164,
R167, R168). -/
def readSample (store : Bool) (dest : Addr) (s : State) : State :=
  let s' := completeRead s.lastSampleByte s
  nextSampleByte (if store then storeSample (sampleAddr dest s.sampI s.byteK) s'.readByte s' else s')

/-- `n` sample bytes, and whether the bus completed all of them; it stops at the first that it does not. -/
def readSamples (store : Bool) (dest : Addr) : Nat → State → State × Bool
  | 0, s => (s, true)
  | n + 1, s => if s.bus.live then readSamples store dest n (readSample store dest s) else (s, false)

/-- The number of sample bytes of the burst, six a sample (R164). -/
def sampleBytes (fifoN : BitVec 6) : Nat := 6 * fifoN.toNat

/-- The 32-bit value of a response, zero-extended (R66). -/
def RespValue.value (v : RespValue) (s : State) : BitVec 32 :=
  match v with
  | .zero => 0
  | .present => (BitVec.ofBool s.present).setWidth 32
  | .readByte => s.readByte.setWidth 32
  | .fifoF => s.fifoF.setWidth 32
  | .fifoN => s.fifoN.setWidth 32
  | .rate => s.rateRead.setWidth 32
  | .freq => s.freqRead.setWidth 32

/-- The free draws a response consumes: one for an accessor of a register without a value (R23). -/
def RespValue.draws (v : RespValue) (s : State) : Nat :=
  match v with
  | .zero => 0
  | .present => 0
  | .readByte => 0
  | .fifoF => 0
  | .fifoN => 0
  | .rate => if s.cacheWritten then 0 else 1
  | .freq => if s.cacheWritten then 0 else 1

/-- The effect of an action. -/
def Action.apply (e : Action) (s : State) : State :=
  match e with
  | .setSess x => { s with sess := x }
  | .setFsm x => { s with fsm := x }
  | .cacheConfig a b =>
    { s with
      rate := (effRate a).setWidth 8
      range := b
      freqChz := freqOf (effRate a)
      cacheWritten := true }
  | .latchPresent => { s with present := presentAfter s.params s.readByte }
  | .latchTap => { s with tapStatus := s.readByte, tapWritten := true }
  | .latchOrient => { s with orientStatus := s.readByte, orientWritten := true }
  | .saveAct => { s with savedAct := s.readByte }
  | .latchFifoLen => { s with fifoF := fifoCount s.readByte }
  | .latchFifoStatus n =>
    { s with
      fifoF := fifoCount s.readByte
      fifoN := minCount (fifoCount s.readByte) n
      sampI := 0
      byteK := 0 }
  | .arm => armIrq s
  | .reply v => { respond 0 (v.value s) s with draws := s.draws + v.draws s }

/-- The micro-steps of a framed operation: its primitives in order and the session state it leads to (R100 to
R106). A block stuck at the OPEN or START of a session still has `sess` = CLOSED (DESIGN CHOICE, assumption 23). -/
def Framed.micros (p : Params) : Framed → List Micro
  | .sessOpen => [.issue .busOpen, .issue .busStart, .act (.setSess .ready)]
  | .addrWrite reg => [.issue (.wr (devW p)), .issue (.wr reg), .act (.setSess .waddr)]
  | .addrRead reg =>
    [.issue (.wr (devW p)), .issue (.wr reg), .issue .busRestart, .issue (.wr (devR p)), .act (.setSess .rburst)]
  | .writeData b => [.issue (.wr b), .act (.setSess .wburst)]
  | .writeSavedAct => [.writeSaved, .act (.setSess .wburst)]
  | .readData sel => [.read sel]
  | .reopen => [.issue .busRestart, .act (.setSess .ready)]
  | .sessClose => [.issue .busStop, .issue .busClose, .act (.setSess .closed)]

/-- The micro-steps of one line. -/
def Line.micros (p : Params) : Line → List Micro
  | .op f => f.micros p
  | .act e => [.act e]
  | .samples store dest => [.burst store dest]

/-- The micro-steps of a command. -/
def expand (p : Params) (l : List Line) : List Micro := l.flatMap (Line.micros p)

/-- Carries out micro-steps in order; where the bus does not complete a primitive the block stays at it, nothing
after it happening (R52, R91, R222). -/
def run : List Micro → State → State
  | [], s => s
  | .act e :: l, s => run l (e.apply s)
  | .issue q :: l, s => if s.bus.live then run l (completePrim q s) else s
  | .writeSaved :: l, s => if s.bus.live then run l (completePrim (.wr s.savedAct) s) else s
  | .read sel :: l, s => if s.bus.live then run l (readData sel s) else s
  | .burst store dest :: l, s =>
    if (readSamples store dest (sampleBytes s.fifoN) s).2 then
      run l (readSamples store dest (sampleBytes s.fifoN) s).1
    else (readSamples store dest (sampleBytes s.fifoN) s).1
  | .sampleReads n store dest :: l, s =>
    if (readSamples store dest n s).2 then run l (readSamples store dest n s).1 else (readSamples store dest n s).1

/-- The framed operations R107 lists for a session state. -/
def Framed.allowed (sess : Sess) (f : Framed) : Bool :=
  match sess, f with
  | .closed, .sessOpen => true
  | .ready, .addrWrite _ => true
  | .ready, .addrRead _ => true
  | .waddr, .writeData _ => true
  | .waddr, .writeSavedAct => true
  | .wburst, .writeData _ => true
  | .wburst, .writeSavedAct => true
  | .wburst, .reopen => true
  | .wburst, .sessClose => true
  | .rburst, .readData _ => true
  | .rdone, .reopen => true
  | .rdone, .sessClose => true
  | _, _ => false

/-- A framed operation on its own, for claims about the sequencer: a protocol violation is refused (R108). One that the
bus stops half-way keeps no position, and a next call starts at its first primitive (DESIGN CHOICE, assumption 12). -/
def framed (f : Framed) (s : State) : Host.Outcome State Fault Refusal :=
  if f.allowed s.sess then .next (run (f.micros s.params) s) else .refused .protocolViolation

/-- Whether a command's first framed operation opens a session, which R100 requires `sess` = CLOSED for. -/
def opensSession (l : List Line) : Bool := l.any (· == .op .sessOpen)

/-- A command: accepted only when the block is idle (R60, R195; a busy block is left as it is), then carried out up to
its response, or up to a primitive that the bus does not complete. -/
def command (i : Instr) (l : List Line) (s : State) : Host.Outcome State Fault Refusal :=
  if s.busy then .next s
  else if opensSession l && s.sess != .closed then .refused .protocolViolation
  else .next (run (expand s.params l) (accept i s))

/-- A write group: an addressed write and its data bytes (R122). -/
def writeGroup (reg : Byte) (bs : List Byte) : List Line := .op (.addrWrite reg) :: bs.map fun b => .op (.writeData b)

/-- The groups of one session, a `Reopen` between every two (R122). -/
def reopened : List (List Line) → List Line
  | [] => []
  | [g] => g
  | g :: g' :: gs => g ++ .op .reopen :: reopened (g' :: gs)

/-- `ReadReg(reg)`, the one-register read session; the byte stays in `readByte` (R180). -/
def readReg (reg : Byte) : List Line :=
  [.op .sessOpen, .op (.addrRead reg), .op (.readData .nack), .op .sessClose]

end Sys2Proof.Machine
end

