-- ==== Sys2Proof/Machine/FifoDecoder.lean ====
section
/-! DEFINITION. The FIFO Sample Decoder (42_fifo_decoder.md): READ_FIFO_LEN and READ_FIFO. -/

namespace Sys2Proof.Machine

/-- `FifoBurst(store, dest, N)`, one session: the status byte and then `min(count, N)` samples (R164). -/
def fifoBurst (p : Params) (store : Bool) (dest : Addr) (n : Byte) : List Line :=
  [.op .sessOpen, .op (.addrRead p.regStatus), .op (.readData (.fifoStatus n)), .act (.latchFifoStatus n),
   .samples store dest, .op .sessClose]

/-- READ_FIFO_LEN's pseudocode (R160). -/
def readFifoLenLines (p : Params) : List Line := readReg p.regStatus ++ [.act .latchFifoLen, .act (.reply .fifoF)]

/-- READ_FIFO_LEN (R160): the low 6 bits of the status register. -/
def execReadFifoLen (s : State) : Host.Outcome State Fault Refusal := command .readFifoLen (readFifoLenLines s.params) s

/-- READ_FIFO's pseudocode (R162): with `a` = 0 no session is opened (R165). -/
def readFifoLines (p : Params) (store : Bool) (a : Byte) (dest : Addr) : List Line :=
  if a = 0 then [.act (.reply .zero)] else fifoBurst p store dest a ++ [.act (.reply .fifoN)]

/-- READ_FIFO (R162): up to `a` samples stored at `dest`, or read and discarded when `store` is false (R168). -/
def execReadFifo (store : Bool) (a : Byte) (dest : Addr) (s : State) : Host.Outcome State Fault Refusal :=
  command (.readFifo store a dest) (readFifoLines s.params store a dest) s

end Sys2Proof.Machine
end

