-- ==== Sys2Proof/Machine/ConfigFsm.lean ====
section
/-! DEFINITION. The Device Configuration State Machine (41_config_fsm.md): VERIFY_ID, STARTUP, STANDBY, ENABLE_INT,
GET_RATE, GET_FREQ. -/

namespace Sys2Proof.Machine

/-- VERIFY_ID's pseudocode (R120). -/
def verifyIdLines (p : Params) : List Line := readReg p.regId ++ [.act .latchPresent, .act (.reply .present)]

/-- VERIFY_ID (R120): the identification register read and compared with `ID_CONST`. -/
def execVerifyId (s : State) : Host.Outcome State Fault Refusal := command .verifyId (verifyIdLines s.params) s

/-- The ten groups of STARTUP (R123), step (6) standing between G7 and the `Reopen` before G8 (R131). -/
def startupGroups (p : Params) (a b : Byte) : List (List Line) :=
  [writeGroup p.regAct [0x00],
   writeGroup p.regDataCfg [dataCfg p b, p.hpCutoffDef],
   writeGroup p.regOrientCfg [p.orientCfgDef, p.orientCountDef, p.orientBfzDef, p.orientThsDef],
   writeGroup p.regMotionCfg [p.motionCfgDef],
   writeGroup p.regTransientCfg [p.transientCfgDef],
   writeGroup p.regTapCfg [0x00],
   writeGroup p.regTapThsX [0x00, 0x00, 0x00, 0x00, 0x00, 0x00] ++ [.act (.cacheConfig a b)],
   writeGroup p.regCtrlPower [p.ctrlPowerDef, p.ctrlPinDef],
   writeGroup p.regOffX [p.offXDef, p.offYDef, p.offZDef],
   writeGroup p.regAct [actActive p (effRate a)]]

/-- STARTUP's pseudocode (R124). -/
def startupLines (p : Params) (a b : Byte) : List Line :=
  [.act (.setFsm .configuring), .op .sessOpen] ++ reopened (startupGroups p a b) ++
  [.act (.setFsm .active), .op .sessClose, .act (.reply .zero)]

/-- STARTUP (R124): the device configured and activated, the configuration cached. -/
def execStartup (a b : Byte) (s : State) : Host.Outcome State Fault Refusal :=
  command (.startup a b) (startupLines s.params a b) s

/-- STANDBY's pseudocode (R140). -/
def standbyLines (p : Params) : List Line :=
  [.op .sessOpen] ++ writeGroup p.regAct [actStandby p rate100] ++
  [.act (.setFsm .standby), .op .sessClose, .act (.reply .zero)]

/-- STANDBY (R140): the active bit cleared, the data-rate field left at 100 Hz. -/
def execStandby (s : State) : Host.Outcome State Fault Refusal := command .standby (standbyLines s.params) s

/-- One of ENABLE_INT's two status reads, the snapshot refreshed as soon as the byte is read (R148; DESIGN CHOICE,
assumption 7). -/
def clearingRead (reg : Byte) (latch : Action) : List Line :=
  [.op .sessOpen, .op (.addrRead reg), .op (.readData .nack), .act latch, .op .sessClose]

/-- The six groups of ENABLE_INT's first session, steps (a) to (f) (R143 to R147). -/
def enableIntGroups (p : Params) (a b : Byte) : List (List Line) :=
  [[.op (.addrRead p.regAct), .op (.readData .nack), .act .saveAct],
   writeGroup p.regAct [0x00],
   writeGroup p.regFifoSetup [p.fifoSetupOp],
   writeGroup p.regTapThsX [p.tapThsXOp, p.tapThsYOp, p.tapThsZOp, p.tapTmltOp, p.tapLtcyOp, p.tapWindOp],
   writeGroup p.regCtrlIntEn [a, b],
   [.op (.addrWrite p.regAct), .op .writeSavedAct]]

/-- ENABLE_INT's pseudocode: steps (a) to (g), the three clearing reads, the arming (R142). -/
def enableIntLines (p : Params) (a b : Byte) : List Line :=
  .op .sessOpen :: reopened (enableIntGroups p a b) ++ .op .sessClose ::
  (fifoBurst p false 0 p.fifoDepth ++ clearingRead p.regTapStatus .latchTap ++
    clearingRead p.regOrientStatus .latchOrient ++ [.act .arm, .act (.reply .zero)])

/-- ENABLE_INT (R142). -/
def execEnableInt (a b : Byte) (s : State) : Host.Outcome State Fault Refusal :=
  command (.enableInt a b) (enableIntLines s.params a b) s

/-- GET_RATE's pseudocode (R152). -/
def getRateLines : List Line := [.act (.reply .rate)]

/-- GET_RATE (R152): the cached rate, any value while no STARTUP has written it. -/
def execGetRate (s : State) : Host.Outcome State Fault Refusal := command .getRate getRateLines s

/-- GET_FREQ's pseudocode (R153). -/
def getFreqLines : List Line := [.act (.reply .freq)]

/-- GET_FREQ (R153): the cached frequency in hundredths of a hertz. -/
def execGetFreq (s : State) : Host.Outcome State Fault Refusal := command .getFreq getFreqLines s

end Sys2Proof.Machine
end

