-- ==== Sys2Proof/Machine/Primitives.lean ====
section
/-! DEFINITION. The eight bus primitives as instructions (R90 to R94): each completes, its record being appended, or
leaves the block waiting at it. -/

namespace Sys2Proof.Machine

/-- OPEN acquires the bus's exclusive handle (R92). -/
def execBusOpen (s : State) : Host.Outcome State Fault Refusal := .next (issuePrim .busOpen s)

/-- START issues the start condition (R94). -/
def execBusStart (s : State) : Host.Outcome State Fault Refusal := .next (issuePrim .busStart s)

/-- RESTART issues a repeated start without releasing the bus (R94). -/
def execBusRestart (s : State) : Host.Outcome State Fault Refusal := .next (issuePrim .busRestart s)

/-- STOP issues the stop condition (R94). -/
def execBusStop (s : State) : Host.Outcome State Fault Refusal := .next (issuePrim .busStop s)

/-- CLOSE releases the bus's exclusive handle (R92). -/
def execBusClose (s : State) : Host.Outcome State Fault Refusal := .next (issuePrim .busClose s)

/-- WR sends one byte; the block is not told whether it was acknowledged (R91, R94). -/
def execWr (data : Byte) (s : State) : Host.Outcome State Fault Refusal := .next (issuePrim (.wr data) s)

/-- RDA is a read that the bus answered with `data` and the block acknowledged (R93). A record from outside carries the
byte the bus returned, and the byte that `bus` would have supplied is consumed unseen (DESIGN CHOICE, assumption 5). -/
def execRda (data : Byte) (s : State) : Host.Outcome State Fault Refusal := .next (issuePrim (.rda data) s)

/-- RDN is a read that the bus answered with `data` and the block did not acknowledge (R93); the byte is the record's,
as for RDA (DESIGN CHOICE, assumption 5). -/
def execRdn (data : Byte) (s : State) : Host.Outcome State Fault Refusal := .next (issuePrim (.rdn data) s)

end Sys2Proof.Machine
end

