-- ==== Sys2Proof/Machine/StatusReaders.lean ====
section
/-! DEFINITION. The Status/Event Readers (43_status_readers.md): READ_TAP, READ_ORIENT, READ_INT_SRC. -/

namespace Sys2Proof.Machine

/-- READ_TAP's pseudocode (R181). -/
def readTapLines (p : Params) : List Line := readReg p.regTapStatus ++ [.act .latchTap, .act (.reply .readByte)]

/-- READ_TAP (R181): the tap status register is read once, which clears its flag in the device, and cached. -/
def execReadTap (s : State) : Host.Outcome State Fault Refusal := command .readTap (readTapLines s.params) s

/-- READ_ORIENT's pseudocode (R182). -/
def readOrientLines (p : Params) : List Line :=
  readReg p.regOrientStatus ++ [.act .latchOrient, .act (.reply .readByte)]

/-- READ_ORIENT (R182). -/
def execReadOrient (s : State) : Host.Outcome State Fault Refusal := command .readOrient (readOrientLines s.params) s

/-- READ_INT_SRC's pseudocode (R183); the byte has no snapshot register. -/
def readIntSrcLines (p : Params) : List Line := readReg p.regIntSource ++ [.act (.reply .readByte)]

/-- READ_INT_SRC (R183). -/
def execReadIntSrc (s : State) : Host.Outcome State Fault Refusal := command .readIntSrc (readIntSrcLines s.params) s

end Sys2Proof.Machine
end

