-- ==== Sys2Proof/Machine/Fetch.lean ====
section
/-! DEFINITION. What the block does next: the reset input, the running command, a record on the primitive channel, or
the word on offer (R17, R60, R195, R210); and how a running command goes on from `upc`. -/

namespace Sys2Proof.Machine

/-- The pseudocode of a command; a primitive has none. -/
def linesOf (p : Params) : Instr → List Line
  | .verifyId => verifyIdLines p
  | .startup a b => startupLines p a b
  | .standby => standbyLines p
  | .enableInt a b => enableIntLines p a b
  | .readFifoLen => readFifoLenLines p
  | .readFifo store a dest => readFifoLines p store a dest
  | .readTap => readTapLines p
  | .readOrient => readOrientLines p
  | .readIntSrc => readIntSrcLines p
  | .getRate => getRateLines
  | .getFreq => getFreqLines
  | .busOpen => []
  | .busStart => []
  | .busRestart => []
  | .busStop => []
  | .busClose => []
  | .wr _ => []
  | .rda _ => []
  | .rdn _ => []

/-- The micro-steps left after `n` completed primitives, the actions before the next primitive having been done. A
FIFO burst counts `6 * fifo_n` primitives (R17, R164). -/
def remaining (fifoN : BitVec 6) : Nat → List Micro → List Micro
  | _, [] => []
  | n, .act _ :: l => remaining fifoN n l
  | n, .burst store dest :: l =>
    if n < sampleBytes fifoN then .sampleReads (sampleBytes fifoN - n) store dest :: l
    else remaining fifoN (n - sampleBytes fifoN) l
  | n, .sampleReads k store dest :: l =>
    if n < k then .sampleReads (k - n) store dest :: l else remaining fifoN (n - k) l
  | 0, .issue q :: l => .issue q :: l
  | 0, .writeSaved :: l => .writeSaved :: l
  | 0, .read sel :: l => .read sel :: l
  | n + 1, .issue _ :: l => remaining fifoN n l
  | n + 1, .writeSaved :: l => remaining fifoN n l
  | n + 1, .read _ :: l => remaining fifoN n l

/-- The micro-steps the running command has left, from `cur_cmd` and `upc` (R17, R22). -/
def State.remaining (s : State) : List Micro :=
  match decodeCommand s.curCmd with
  | .ok i => Machine.remaining s.fifoN s.upc (expand s.params (linesOf s.params i))
  | .error _ => []

/-- The running command goes on from the primitive it is at; while the bus does not complete it, nothing happens
(R222; DEDUCED, assumption 6). -/
def continueCommand (s : State) : State := run s.remaining s

/-- What there is to do. -/
inductive Fetch where
  /-- The reset input is asserted. -/
  | reset
  /-- A command is running. -/
  | resume
  /-- The instruction to run and the state with it taken off its channel. -/
  | run (i : Instr) (s : State)
  /-- A command word that selects no row (R64). -/
  | illegal (w : CmdWord) (s : State)
  /-- A primitive record that is never produced (R67). -/
  | reserved
  /-- Nothing is on offer, or the bus does not complete the primitive on its channel. -/
  | wait
  deriving DecidableEq, Repr

/-- The word on offer on the command channel, taken when the block is idle (R60). -/
def fetchCommand (s : State) : Fetch :=
  match s.cmdIn with
  | [] => .wait
  | w :: rest =>
    match decode (.command w) with
    | .ok i => .run i { s with cmdIn := rest }
    | .error _ => .illegal w { s with cmdIn := rest }

/-- What the block does next. A command offered while `busy` = 1 stays on offer (R195). -/
def fetch (s : State) : Fetch :=
  if s.resetPin then .reset
  else if s.busy then .resume
  else
    match s.primIn with
    | none => fetchCommand s
    | some w =>
      match decode (.primitive w) with
      | .ok i => if s.bus.live then .run i { s with primIn := none } else .wait
      | .error _ => .reserved

/-- The block idle, with nothing else to attend to. -/
def idleForFetch (s : State) : State := { s with resetPin := false, busy := false, upc := 0, primIn := none }

/-- The state with a table word placed where `fetch` takes the next instruction: a format P record on the primitive
channel, a format C word first on the command channel. -/
def placeWord (s : State) (nbits w : Nat) : State :=
  if nbits ≤ 16 then { idleForFetch s with primIn := some (BitVec.ofNat 12 w) }
  else { idleForFetch s with cmdIn := BitVec.ofNat 64 w :: s.cmdIn }

end Sys2Proof.Machine
end

