-- ==== Sys2Proof/Machine/Dispatch.lean ====
section
/-! DEFINITION. One arm per instruction, each one direct call of its meaning. -/

namespace Sys2Proof.Machine

/-- The meaning of an instruction. -/
def exec (i : Instr) (s : State) : Host.Outcome State Fault Refusal :=
  match i with
  | .verifyId => Sys2Proof.Machine.execVerifyId s
  | .startup a b => Sys2Proof.Machine.execStartup a b s
  | .standby => Sys2Proof.Machine.execStandby s
  | .enableInt a b => Sys2Proof.Machine.execEnableInt a b s
  | .readFifoLen => Sys2Proof.Machine.execReadFifoLen s
  | .readFifo store a dest => Sys2Proof.Machine.execReadFifo store a dest s
  | .readTap => Sys2Proof.Machine.execReadTap s
  | .readOrient => Sys2Proof.Machine.execReadOrient s
  | .readIntSrc => Sys2Proof.Machine.execReadIntSrc s
  | .getRate => Sys2Proof.Machine.execGetRate s
  | .getFreq => Sys2Proof.Machine.execGetFreq s
  | .busOpen => Sys2Proof.Machine.execBusOpen s
  | .busStart => Sys2Proof.Machine.execBusStart s
  | .busRestart => Sys2Proof.Machine.execBusRestart s
  | .busStop => Sys2Proof.Machine.execBusStop s
  | .busClose => Sys2Proof.Machine.execBusClose s
  | .wr data => Sys2Proof.Machine.execWr data s
  | .rda data => Sys2Proof.Machine.execRda data s
  | .rdn data => Sys2Proof.Machine.execRdn data s

end Sys2Proof.Machine
end

