-- ==== Sys2Proof/Machine/Step.lean ====
section
/-! DEFINITION. One step: an instruction run to its response (or to a primitive that the bus does not complete), the
running command gone on with, the exception, the reset input, or waiting. -/

namespace Sys2Proof.Machine

/-- One step of the block. -/
def step (s : State) : Host.Outcome State Fault Refusal :=
  match fetch s with
  | .reset => .next (applyReset s)
  | .resume => .next (continueCommand s)
  | .run i s' => exec i s'
  | .illegal w s' => .next (raiseIllegalCommand w s')
  | .reserved => .refused .reservedPrimitive
  | .wait => .next s

/-- The state with an opcode-table word placed where `step` takes its next instruction. -/
def State.withFetchWord (s : State) (nbits w : Nat) : State := placeWord s nbits w

end Sys2Proof.Machine
end

