-- ==== Sys2Proof/Safety.lean ====
section
/-! DEFINITION. The terms claims are stated in: an idle block, a bus that completes what it is given, the primitives
and records the rules list, the session shapes of R109, what stays the same, and the invariants of the machine. -/

namespace Sys2Proof.Machine

/-- The block waits for a command: none is running and no session is open. -/
abbrev Idle (s : State) : Prop := s.busy = false ∧ s.sess = .closed

/-- The bus completes every primitive it is given (the fairness assumption of R222). -/
abbrev Live (s : State) : Prop := s.bus.completes = none

/-- The bus after it has completed the primitives of a list in order. -/
def busAfter (p : Params) (l : List Prim) (b : Bus) : Bus := l.foldl (fun c q => c.after p q) b

/-- The byte the bus supplies to a read that follows the primitives of a list. -/
def busByte (p : Params) (l : List Prim) (b : Bus) : Byte := (busAfter p l b).supply p

/-- The `n` bytes the bus supplies to `n` reads in a row. -/
def busBytes (p : Params) : Nat → Bus → List Byte
  | 0, _ => []
  | n + 1, b => b.supply p :: busBytes p n (b.after p (.rda (b.supply p)))

/-- The records of a list of primitives. -/
def primRecords (l : List Prim) : List Record := l.map .prim

/-- The primitives among the records of a trace. -/
def primsOf (l : List Record) : List Prim :=
  l.filterMap fun r =>
    match r with
    | .prim q => some q
    | .mw _ _ => none
    | .arm => none
    | .resp _ _ => none

/-- The responses among the records of a trace. -/
def responsesOf (l : List Record) : List (Byte × BitVec 32) :=
  l.filterMap fun r =>
    match r with
    | .resp c v => some (c, v)
    | .prim _ => none
    | .mw _ _ => none
    | .arm => none

/-- `OPEN START` and an addressed read of register `reg`, up to its first byte (R100, R102). -/
def readHead (p : Params) (reg : Byte) : List Prim :=
  [.busOpen, .busStart, .wr (devW p), .wr reg, .busRestart, .wr (devR p)]

/-- The nine primitives of a one-register read session (R180). -/
def readSession (p : Params) (reg v : Byte) : List Prim := readHead p reg ++ [.rdn v, .busStop, .busClose]

/-- The byte a one-register read session of an idle block returns. -/
def registerByte (s : State) (reg : Byte) : Byte := busByte s.params (readHead s.params reg) s.bus

/-- The primitives of write groups, each an addressed write of a register and its data bytes, with a restart between
every two (R101, R103, R105, R122). -/
def writeGroups (p : Params) : List (Byte × List Byte) → List Prim
  | [] => []
  | [(r, bs)] => .wr (devW p) :: .wr r :: bs.map .wr
  | (r, bs) :: g :: gs => .wr (devW p) :: .wr r :: bs.map .wr ++ .busRestart :: writeGroups p (g :: gs)

/-- The primitives of a session of write groups (R109). -/
def writeSession (p : Params) (gs : List (Byte × List Byte)) : List Prim :=
  .busOpen :: .busStart :: writeGroups p gs ++ [.busStop, .busClose]

/-- The table of R123: each group's start register and data bytes. -/
def startupTable (p : Params) (a b : Byte) : List (Byte × List Byte) :=
  [(p.regAct, [0x00]),
   (p.regDataCfg, [dataCfg p b, p.hpCutoffDef]),
   (p.regOrientCfg, [p.orientCfgDef, p.orientCountDef, p.orientBfzDef, p.orientThsDef]),
   (p.regMotionCfg, [p.motionCfgDef]),
   (p.regTransientCfg, [p.transientCfgDef]),
   (p.regTapCfg, [0x00]),
   (p.regTapThsX, [0x00, 0x00, 0x00, 0x00, 0x00, 0x00]),
   (p.regCtrlPower, [p.ctrlPowerDef, p.ctrlPinDef]),
   (p.regOffX, [p.offXDef, p.offYDef, p.offZDef]),
   (p.regAct, [actActive p (effRate a)])]

/-- Steps (b) to (f) of ENABLE_INT: each write group's start register and data bytes (R143 to R147). -/
def enableIntTable (p : Params) (a b act : Byte) : List (Byte × List Byte) :=
  [(p.regAct, [0x00]),
   (p.regFifoSetup, [p.fifoSetupOp]),
   (p.regTapThsX, [p.tapThsXOp, p.tapThsYOp, p.tapThsZOp, p.tapTmltOp, p.tapLtcyOp, p.tapWindOp]),
   (p.regCtrlIntEn, [a, b]),
   (p.regAct, [act])]

/-- The 35 primitives of ENABLE_INT's first session, `act` being the activation byte read in step (a) (R142). -/
def enableIntSession (p : Params) (a b act : Byte) : List Prim :=
  readHead p p.regAct ++ [.rdn act, .busRestart] ++ writeGroups p (enableIntTable p a b act) ++ [.busStop, .busClose]

/-- A read burst: every byte acknowledged but the last (R104). -/
def readBurst : List Byte → List Prim
  | [] => []
  | [v] => [.rdn v]
  | v :: w :: l => .rda v :: readBurst (w :: l)

/-- A FIFO burst session whose bytes, the status byte first, are `bs` (R164). -/
def fifoSession (p : Params) (bs : List Byte) : List Prim :=
  readHead p p.regStatus ++ readBurst bs ++ [.busStop, .busClose]

/-- The sample count `min(status & 0x3F, N)` of a FIFO burst that starts with the bus at `b` (R164). -/
def fifoSamples (p : Params) (n : Byte) (b : Bus) : BitVec 6 :=
  minCount (fifoCount (busByte p (readHead p p.regStatus) b)) n

/-- All the bytes of that burst: the status byte and six for each sample. -/
def fifoBytes (p : Params) (n : Byte) (b : Bus) : List Byte :=
  busBytes p (1 + 6 * (fifoSamples p n b).toNat) (busAfter p (readHead p p.regStatus) b)

/-- The offset in the buffer of wire byte `j` of a burst's samples: the two bytes of each axis are swapped (R46,
R167). -/
def byteOffset (j : Nat) : Nat := 6 * (j / 6) + (j % 6 ^^^ 1)

/-- The records of the sample bytes from wire byte `j` on, each followed by its store (R49, R164). -/
def sampleRecords (store : Bool) (dest : Addr) : Nat → List Byte → List Record
  | _, [] => []
  | j, v :: l =>
    .prim (readPrim l.isEmpty v) ::
      (if store then [.mw (dest + BitVec.ofNat 32 (byteOffset j)) v] else []) ++ sampleRecords store dest (j + 1) l

/-- The cached configuration is the same (R11 to R13). -/
abbrev SameConfig (s t : State) : Prop :=
  t.rate = s.rate ∧ t.range = s.range ∧ t.freqChz = s.freqChz ∧ t.cacheWritten = s.cacheWritten

/-- The status snapshots are the same (R15). -/
abbrev SameSnapshots (s t : State) : Prop :=
  t.tapStatus = s.tapStatus ∧ t.tapWritten = s.tapWritten ∧ t.orientStatus = s.orientStatus ∧
    t.orientWritten = s.orientWritten

/-- `irq_armed` and the two interrupt lines are the same (R21, R150). -/
abbrev SameArming (s t : State) : Prop := t.irqArmed = s.irqArmed ∧ t.lineA = s.lineA ∧ t.lineB = s.lineB

/-- The scratch registers of the FIFO commands are the same (R20). -/
abbrev SameFifoScratch (s t : State) : Prop :=
  t.fifoF = s.fifoF ∧ t.fifoN = s.fifoN ∧ t.sampI = s.sampI ∧ t.byteK = s.byteK

/-- Every byte of sample memory reads the same. -/
abbrev SameMemory (s t : State) : Prop := ∀ x : Addr, t.sampleByte x = s.sampleByte x

/-- The parameters and what the host offers are the same. -/
abbrev SameInputs (s t : State) : Prop :=
  t.params = s.params ∧ t.cmdIn = s.cmdIn ∧ t.primIn = s.primIn ∧ t.resetPin = s.resetPin

/-- The command has responded and the block is idle again (R17, R53). -/
abbrev Responded (t : State) : Prop := t.busy = false ∧ t.upc = 0 ∧ t.sess = .closed

/-- Where a list of primitives stands in the session grammar of R109. -/
inductive Shape where
  /-- No session is open. -/
  | outside
  /-- After OPEN. -/
  | opened
  /-- A group begins. -/
  | group
  /-- After the group's `WR(DEVW)`. -/
  | addressed
  /-- After the register address. -/
  | register
  /-- In a write group, a data byte written. -/
  | writing
  /-- In a read group, after the restart. -/
  | turned
  /-- In a read group, before its not-acknowledged byte. -/
  | reading
  /-- After the not-acknowledged byte. -/
  | readDone
  /-- After STOP. -/
  | stopped
  deriving DecidableEq, Repr

/-- One primitive of the grammar of R109, none where it does not fit. -/
def Shape.next (p : Params) (x : Shape) (q : Prim) : Option Shape :=
  match x, q with
  | .outside, .busOpen => some .opened
  | .opened, .busStart => some .group
  | .group, .wr b => if b = devW p then some .addressed else none
  | .addressed, .wr _ => some .register
  | .register, .wr _ => some .writing
  | .writing, .wr _ => some .writing
  | .writing, .busRestart => some .group
  | .writing, .busStop => some .stopped
  | .register, .busRestart => some .turned
  | .turned, .wr b => if b = devR p then some .reading else none
  | .reading, .rda _ => some .reading
  | .reading, .rdn _ => some .readDone
  | .readDone, .busRestart => some .group
  | .readDone, .busStop => some .stopped
  | .stopped, .busClose => some .outside
  | _, _ => none

/-- Where a list of primitives leads in the grammar of R109. -/
def Shape.after (p : Params) : Shape → List Prim → Option Shape
  | x, [] => some x
  | x, q :: l =>
    match x.next p q with
    | some y => Shape.after p y l
    | none => none

/-- The primitive that the block is waiting for, if a command is running. -/
def State.atPrimitive (s : State) : Bool := s.busy && !s.remaining.isEmpty

/-- The local invariant: sample memory is in canonical form, the cached rate and frequency belong together (R11, R13,
R73), `byte_k` is 0..5 (R20), `upc` is 0 when no command runs (R17), and an armed block has both interrupt lines
enabled at the configured priority (R150). -/
abbrev LocalInv (s : State) : Prop :=
  s.mem.wf = true ∧
  (s.cacheWritten = true → s.rate.toNat < 8 ∧ s.freqChz = freqOf (effRate s.rate)) ∧
  s.byteK.toNat < 6 ∧
  (s.busy = false → s.upc = 0) ∧
  (s.irqArmed = true →
    s.lineA.enabled = true ∧ s.lineB.enabled = true ∧ s.lineA.priority = s.params.irqPriority ∧
      s.lineB.priority = s.params.irqPriority)

/-- The command invariant: between commands the session is closed and `fsm` is not CONFIGURING; a running command
stands at a primitive, and `fsm` is CONFIGURING only while STARTUP has its `fsm <- ACTIVE` still to do (R17, R121,
R149). -/
abbrev CommandInv (s : State) : Prop :=
  (s.busy = false → s.upc = 0 ∧ s.sess = .closed ∧ s.fsm ≠ .configuring) ∧
  (s.busy = true → s.remaining ≠ [] ∧ (s.fsm = .configuring → Micro.act (.setFsm .active) ∈ s.remaining))

end Sys2Proof.Machine
end

