-- ==== Sys2Proof/Certificates/Slice0/Obligations.lean ====
section
/-! DEFINITION. The statements for the provers, in the order of OBLIGATIONS.json. -/

open Sys2Proof Sys2Proof.Machine

/-! ### Encodings -/

/-- Decoding an encoded well-formed instruction gives it back, every operand at every value (R60 to R63, R67). -/
def Obligations.DecodeInvertsEncode : Prop :=
  ∀ i : Instr, i.wellFormed = true → decode (encode i) = .ok i

/-- A channel word that decodes is the encoding of what it decodes to: no bit of a legal word is dropped. -/
def Obligations.EncodeInvertsDecode : Prop :=
  ∀ (w : ChannelWord) (i : Instr), decode w = .ok i → encode i = w

/-- A command word decodes exactly when it selects a row of the opcode table (R63, R64). -/
def Obligations.DecoderAcceptsTheSelectedWords : Prop :=
  ∀ w : CmdWord, (∃ i, decodeCommand w = .ok i) ↔ commandRows.any (fun r => r.selectedBy w) = true

/-- The command words and records of V1, V3 and V4 decode to what the spec says they are. -/
def Obligations.SpecWordsDecode : Prop :=
  decode (.command 0x1000000000000000) = .ok .verifyId ∧
  decode (.command 0x20C8070000000000) = .ok (.startup 200 7) ∧
  decode (.command 0x4009080000000000) = .ok (.enableInt 0x09 0x08) ∧
  decode (.command 0x6103000000001000) = .ok (.readFifo true 3 0x1000) ∧
  decode (.command 0x6003000012345678) = .ok (.readFifo false 3 0x12345678) ∧
  decode (.command 0xB000000000000000) = .ok .getFreq ∧
  decode (.primitive 0x638) = .ok (.wr 0x38) ∧
  decode (.primitive 0x705) = .ok (.rda 0x05) ∧
  decode (.primitive 0x81A) = .ok (.rdn 0x1A)

/-! ### The step -/

/-- An idle block with nothing on the primitive channel takes the word on offer off its channel and runs the
instruction it decodes to. -/
def Obligations.StepRunsTheOfferedCommand : Prop :=
  ∀ (s : State) (w : CmdWord) (rest : List CmdWord) (i : Instr),
    s.resetPin = false → s.busy = false → s.primIn = none → s.cmdIn = w :: rest →
    decode (.command w) = .ok i →
    step s = exec i { s with cmdIn := rest }

/-- A record on the primitive channel of an idle block is taken off it and run once the bus can complete it; until
then the block waits. The channel as an input is the model's choice (assumption 5). -/
def Obligations.StepRunsThePrimitive : Prop :=
  ∀ (s : State) (w : PrimWord) (i : Instr),
    s.resetPin = false → s.busy = false → s.primIn = some w → decode (.primitive w) = .ok i →
    (s.bus.live = true → step s = exec i { s with primIn := none }) ∧ (s.bus.live = false → step s = .next s)

/-- A record that is never produced (kind 0 or 9..15, or data on a kind without data; R67) is refused; nothing on
offer leaves the block waiting. The refusal is the model's choice, which U10 allows (assumption 13), on a channel that
is an input by the model's choice (assumption 5). -/
def Obligations.StepRefusesReservedRecordsAndWaits : Prop :=
  ∀ s : State, s.resetPin = false → s.busy = false →
    (∀ w, s.primIn = some w →
      (fieldKind w = 0 ∨ 9 ≤ fieldKind w ∨ (fieldKind w ≤ 5 ∧ fieldData w ≠ 0)) →
      step s = .refused .reservedPrimitive) ∧
    (s.primIn = none → s.cmdIn = [] → step s = .next s)

/-- A word that selects no row gets `RESP(1,0)`: no primitive, and of the registers only `cur_cmd` (R64, R190). That
`cur_cmd` still holds the word after the response is the model's reading (assumption 20, DEDUCED). -/
def Obligations.IllegalWordRespondsOne : Prop :=
  ∀ (s : State) (w : CmdWord) (rest : List CmdWord),
    s.resetPin = false → s.busy = false → s.primIn = none → s.cmdIn = w :: rest →
    commandRows.any (fun r => r.selectedBy w) = false →
    step s = .next { s with
      cmdIn := rest
      curCmd := w
      busy := false
      upc := 0
      trace := s.trace ++ [.resp 1 0] }

/-- A word offered while a command runs is not accepted: the step does not touch the channel, and without a bus that
completes the primitive outstanding it changes nothing (R195, R222). That `cur_cmd` keeps its word where the command
responds within the step (assumption 20) and that a stuck block steps to itself (assumption 6) are the model's
reading. -/
def Obligations.BusyBlockAcceptsNothing : Prop :=
  ∀ s : State, s.resetPin = false → s.busy = true →
    (∃ t, step s = .next t ∧ t.cmdIn = s.cmdIn ∧ t.curCmd = s.curCmd) ∧
    (s.bus.live = false → step s = .next s) ∧
    (∀ i : Instr, i.isCommand = true → exec i s = .next s)

/-- The reset input gives every register of the block its reset value and emits nothing (R34, R210, R211). For the
registers to which R34 gives no value the value 0 and the mark "no value" are the model's (assumption 1). -/
def Obligations.ResetInputSetsEveryRegister : Prop :=
  ∀ s : State, s.resetPin = true →
    ∃ t, step s = .next t ∧
      t.fsm = .standby ∧ t.present = false ∧ t.busy = false ∧ t.upc = 0 ∧ t.sess = .closed ∧ t.irqArmed = false ∧
      t.statusOutputs.rate = none ∧ t.statusOutputs.range = none ∧ t.statusOutputs.freqChz = none ∧
      t.statusOutputs.tapStatus = none ∧ t.statusOutputs.orientStatus = none ∧
      t.trace = s.trace

/-- Reset touches neither sample memory nor the interrupt lines nor what the host offers nor, between commands, the
bus and the device (R212). A reset during a command leaves bus and device unknown (R213), and nothing is said of them.
That the reset input reads as not asserted after the one step is the model's choice (assumption 22). -/
def Obligations.ResetLeavesTheOutsideAlone : Prop :=
  ∀ s : State, s.resetPin = true →
    ∃ t, step s = .next t ∧ SameMemory s t ∧ t.lineA = s.lineA ∧ t.lineB = s.lineB ∧ t.params = s.params ∧
      t.cmdIn = s.cmdIn ∧ t.primIn = s.primIn ∧ t.resetPin = false ∧
      (s.busy = false → t.bus = s.bus)

/-! ### The primitives -/

/-- OPEN, START, RESTART, STOP, CLOSE and WR complete: their record is appended, `upc` advances inside a command, and
nothing else of the block changes; OPEN acquires the bus's handle and CLOSE releases it (R90 to R92, R94). That this
holds also of OPEN on a held handle and CLOSE on a free one is the model's choice (assumption 24). -/
def Obligations.PlainPrimitivesComplete : Prop :=
  ∀ s : State, s.bus.live = true →
    (∀ (i : Instr) (q : Prim),
      (i = .busOpen ∧ q = .busOpen) ∨ (i = .busStart ∧ q = .busStart) ∨ (i = .busRestart ∧ q = .busRestart) ∨
        (i = .busStop ∧ q = .busStop) ∨ (i = .busClose ∧ q = .busClose) ∨ (∃ d, i = .wr d ∧ q = .wr d) →
      exec i s = .next { s with
        trace := s.trace ++ [.prim q]
        upc := if s.busy then s.upc + 1 else s.upc
        bus := s.bus.after s.params q }) ∧
    (s.bus.after s.params .busOpen).held = true ∧ (s.bus.after s.params .busClose).held = false ∧
    (∀ q, q ∈ [Prim.busStart, .busRestart, .busStop] ∨ (∃ d, q = .wr d) →
      (s.bus.after s.params q).held = s.bus.held)

/-- RDA and RDN complete with the byte of their record: it goes to the block, the record is appended, and nothing else
of the block changes (R93). That the byte is the record's, whatever `bus` would have supplied, is the model's choice
(assumption 5), and so is the place `readByte` it goes to (assumption 15). -/
def Obligations.ReadPrimitivesReturnTheByte : Prop :=
  ∀ (d : Byte) (s : State), s.bus.live = true →
    exec (.rda d) s = .next { s with
      trace := s.trace ++ [.prim (.rda d)]
      upc := if s.busy then s.upc + 1 else s.upc
      readByte := d
      bus := s.bus.after s.params (.rda d) } ∧
    exec (.rdn d) s = .next { s with
      trace := s.trace ++ [.prim (.rdn d)]
      upc := if s.busy then s.upc + 1 else s.upc
      readByte := d
      bus := s.bus.after s.params (.rdn d) }

/-- A primitive that the bus does not complete leaves everything as it is (R91, R222). That waiting is a next state
which is the same state is the model's reading (assumption 6). -/
def Obligations.PrimitiveWaitsForTheBus : Prop :=
  ∀ (i : Instr) (s : State), i.isCommand = false → s.bus.live = false → exec i s = .next s

/-! ### The sequencer -/

/-- Each framed operation that R107 lists for the session state appends the primitives of R100 to R106 and leads to
the state the table gives, on a bus that completes what it is given. -/
def Obligations.FramedOperationsFollowTheTable : Prop :=
  ∀ s : State, Live s →
    (s.sess = .closed →
      ∃ t, framed .sessOpen s = .next t ∧ t.sess = .ready ∧
        t.trace = s.trace ++ primRecords [.busOpen, .busStart]) ∧
    (s.sess = .ready → ∀ reg,
      (∃ t, framed (.addrWrite reg) s = .next t ∧ t.sess = .waddr ∧
        t.trace = s.trace ++ primRecords [.wr (devW s.params), .wr reg]) ∧
      (∃ t, framed (.addrRead reg) s = .next t ∧ t.sess = .rburst ∧
        t.trace = s.trace ++ primRecords [.wr (devW s.params), .wr reg, .busRestart, .wr (devR s.params)])) ∧
    (s.sess = .waddr ∨ s.sess = .wburst → ∀ b,
      ∃ t, framed (.writeData b) s = .next t ∧ t.sess = .wburst ∧ t.trace = s.trace ++ primRecords [.wr b]) ∧
    (s.sess = .rburst →
      (∃ t, framed (.readData .ack) s = .next t ∧ t.sess = .rburst ∧ t.readByte = s.bus.supply s.params ∧
        t.trace = s.trace ++ primRecords [.rda (s.bus.supply s.params)]) ∧
      (∃ t, framed (.readData .nack) s = .next t ∧ t.sess = .rdone ∧ t.readByte = s.bus.supply s.params ∧
        t.trace = s.trace ++ primRecords [.rdn (s.bus.supply s.params)])) ∧
    (s.sess = .wburst ∨ s.sess = .rdone →
      (∃ t, framed .reopen s = .next t ∧ t.sess = .ready ∧ t.trace = s.trace ++ primRecords [.busRestart]) ∧
      (∃ t, framed .sessClose s = .next t ∧ t.sess = .closed ∧
        t.trace = s.trace ++ primRecords [.busStop, .busClose]))

/-- A framed operation that R107 does not list for the session state is refused, and only such a one (R108). -/
def Obligations.ProtocolViolationsAreRefused : Prop :=
  ∀ (f : Framed) (s : State),
    framed f s = .refused .protocolViolation ↔
      ¬ ((s.sess = .closed ∧ f = .sessOpen) ∨
         (s.sess = .ready ∧ ∃ r, f = .addrWrite r ∨ f = .addrRead r) ∨
         ((s.sess = .waddr ∨ s.sess = .wburst) ∧ ((∃ b, f = .writeData b) ∨ f = .writeSavedAct)) ∨
         (s.sess = .rburst ∧ ∃ sel, f = .readData sel) ∨
         ((s.sess = .wburst ∨ s.sess = .rdone) ∧ (f = .reopen ∨ f = .sessClose)))

/-- Whatever bytes are read and wherever the bus stops, the primitives a command issues follow the session grammar of
R109, and a command that has responded has closed its sessions: in particular every read burst ends in its one
not-acknowledged byte (R104, R108, R109). -/
def Obligations.CommandsProduceSessionShapes : Prop :=
  ∀ (i : Instr) (s t : State), i.isCommand = true → Idle s → exec i s = .next t →
    ∃ l x, t.trace = s.trace ++ l ∧ Shape.after s.params .outside (primsOf l) = some x ∧
      (t.busy = false → x = .outside)

/-! ### VERIFY_ID, STARTUP, STANDBY, ENABLE_INT, the accessors -/

/-- VERIFY_ID on an idle block: the nine primitives of a read of `REG_ID`, `present` set to the comparison, the
response 1 or 0 (R120). That `cur_cmd` keeps the word after the response (assumption 20) and that `readByte` holds the
byte read (assumption 15) are the model's reading. -/
def Obligations.VerifyIdComparesTheIdentity : Prop :=
  ∀ s : State, Idle s → Live s →
    exec .verifyId s = .next { s with
      present := registerByte s s.params.regId == s.params.idConst
      readByte := registerByte s s.params.regId
      curCmd := 0x1000000000000000
      upc := 0
      trace := s.trace ++ primRecords (readSession s.params s.params.regId (registerByte s s.params.regId)) ++
        [.resp 0 (if registerByte s s.params.regId = s.params.idConst then 1 else 0)]
      bus := busAfter s.params (readSession s.params s.params.regId (registerByte s s.params.regId)) s.bus }

/-- STARTUP on an idle block: one session of the ten groups of R123, `rate` and `freq_chz` from the effective rate,
`range` as passed, `fsm` = ACTIVE; nothing else of the block changes, `present` included (R124, R131 to R133). That
`cur_cmd` keeps the word after the response is the model's reading (assumption 20). -/
def Obligations.StartupConfiguresAndActivates : Prop :=
  ∀ (a b : Byte) (s : State), Idle s → Live s →
    exec (.startup a b) s = .next { s with
      fsm := .active
      rate := if a ≤ 7 then a else 3
      range := b
      freqChz := freqOf (effRate a)
      cacheWritten := true
      curCmd := encodeCommand (.startup a b)
      upc := 0
      trace := s.trace ++ primRecords (writeSession s.params (startupTable s.params a b)) ++ [.resp 0 0]
      bus := busAfter s.params (writeSession s.params (startupTable s.params a b)) s.bus }

/-- STARTUP's session is 55 primitives, none of them a read, and by the device contract it writes the registers of
R123 in order and no other: first 0 to `REG_ACT`, last `ActActive` to `REG_ACT`, with `RangeEnc(b)` in the low 2 bits
of the data-config byte and the data-rate field at bits 5..3 (R43, R74 to R76, R126 to R130, R135). -/
def Obligations.StartupWritesTheRegistersInOrder : Prop :=
  ∀ (a b : Byte) (s : State), Idle s → Live s →
    let p := s.params
    let k : BitVec 3 := if a ≤ 7 then a.setWidth 3 else 3
    ∃ t l, exec (.startup a b) s = .next t ∧ t.trace = s.trace ++ primRecords l ++ [.resp 0 0] ∧
      l.length = 55 ∧ (∀ q ∈ l, q.isRead = false) ∧
      registerWrites p .idle l =
        [(p.regAct, 0), (p.regDataCfg, dataCfg p b), (p.regDataCfg + 1, p.hpCutoffDef),
         (p.regOrientCfg, p.orientCfgDef), (p.regOrientCfg + 1, p.orientCountDef),
         (p.regOrientCfg + 1 + 1, p.orientBfzDef), (p.regOrientCfg + 1 + 1 + 1, p.orientThsDef),
         (p.regMotionCfg, p.motionCfgDef), (p.regTransientCfg, p.transientCfgDef), (p.regTapCfg, 0),
         (p.regTapThsX, 0), (p.regTapThsX + 1, 0), (p.regTapThsX + 1 + 1, 0), (p.regTapThsX + 1 + 1 + 1, 0),
         (p.regTapThsX + 1 + 1 + 1 + 1, 0), (p.regTapThsX + 1 + 1 + 1 + 1 + 1, 0),
         (p.regCtrlPower, p.ctrlPowerDef), (p.regCtrlPower + 1, p.ctrlPinDef),
         (p.regOffX, p.offXDef), (p.regOffX + 1, p.offYDef), (p.regOffX + 1 + 1, p.offZDef),
         (p.regAct, ((p.drEnc[k.toNat]'k.isLt).setWidth 8 <<< 3) ||| p.activeMask)] ∧
      dataCfg p b &&& 0x03 = (if b ≤ 2 then b else 1) ∧
      dataCfg p b &&& 0xFC = p.dataCfgBase &&& 0xFC

/-- When STARTUP is stopped by the bus after `k` primitives: `fsm` is CONFIGURING from acceptance and ACTIVE once the
53rd primitive has completed; `rate`, `range` and `freq_chz` are new once the 38th has completed and old before; `upc`
is `k` and there is no response (R125, R131, R134, V24). -/
def Obligations.StartupUpdatePoints : Prop :=
  ∀ (a b : Byte) (k : Nat) (s : State), Idle s → s.bus.completes = some k → k < 55 →
    ∃ t, exec (.startup a b) s = .next t ∧
      t.busy = true ∧ t.upc = k ∧
      t.fsm = (if k < 53 then .configuring else .active) ∧
      t.rate = (if k < 38 then s.rate else if a ≤ 7 then a else 3) ∧
      t.range = (if k < 38 then s.range else b) ∧
      t.freqChz = (if k < 38 then s.freqChz else freqOf (effRate a)) ∧
      t.present = s.present ∧
      t.trace = s.trace ++ primRecords ((writeSession s.params (startupTable s.params a b)).take k)

/-- An unrecognised rate code acts as code 3; an unrecognised range code writes what code 1 writes but is cached as
passed; both respond with code 0 (R193). -/
def Obligations.UnrecognisedCodesFallBack : Prop :=
  ∀ (a b : Byte) (s : State), Idle s → Live s →
    (7 < a → ∃ t u, exec (.startup a b) s = .next t ∧ exec (.startup 3 b) s = .next u ∧
      t = { u with curCmd := t.curCmd } ∧ t.rate = 3 ∧ t.freqChz = 10000 ∧ t.trace.getLast? = some (.resp 0 0)) ∧
    (2 < b → ∃ t u, exec (.startup a b) s = .next t ∧ exec (.startup a 1) s = .next u ∧
      t.trace = u.trace ∧ t.range = b ∧ u.range = 1 ∧ t.trace.getLast? = some (.resp 0 0))

/-- `FreqChz` is the table of R73 and, with `DR`, is tied one to one to the eight rate codes when the encodings are
distinct (R73, R74). -/
def Obligations.RateCodesAreOneToOne : Prop :=
  [(0 : BitVec 3), 1, 2, 3, 4, 5, 6, 7].map freqOf = [80000, 40000, 20000, 10000, 5000, 1250, 625, 156] ∧
  (∀ j k, freqOf j = freqOf k → j = k) ∧
  (∀ p : Params, p.wellFormed = true → ∀ j k, actActive p j = actActive p k → j = k) ∧
  (∀ p : Params, p.wellFormed = true → ∀ k,
    actStandby p k &&& p.activeMask = 0 ∧ actActive p k &&& p.activeMask = p.activeMask ∧
    (actActive p k).extractLsb' 3 3 = p.drEnc[k.toNat]'k.isLt)

/-- STANDBY on an idle block: one write of the 100 Hz activation value with the active bit clear to `REG_ACT`,
whatever `rate` is, and `fsm` = STANDBY; the cached configuration stays (R77, R140, R141). That `cur_cmd` keeps the
word after the response is the model's reading (assumption 20). -/
def Obligations.StandbyWritesTheHundredHertzValue : Prop :=
  ∀ s : State, Idle s → Live s →
    exec .standby s = .next { s with
      fsm := .standby
      curCmd := 0x3000000000000000
      upc := 0
      trace := s.trace ++ primRecords (writeSession s.params
        [(s.params.regAct, [((s.params.drEnc[3]).setWidth 8 <<< 3 : Byte)])]) ++ [.resp 0 0]
      bus := busAfter s.params (writeSession s.params
        [(s.params.regAct, [((s.params.drEnc[3]).setWidth 8 <<< 3 : Byte)])]) s.bus }

/-- ENABLE_INT on an idle block: the session of steps (a) to (g) that writes back the activation byte it read, the
discarding drain, the two clearing reads that refresh the snapshots, ARM after them, and the response; `fsm` and the
cached configuration stay and nothing is stored (R142 to R150). -/
def Obligations.EnableIntConfiguresClearsAndArms : Prop :=
  ∀ (a b : Byte) (s : State), Idle s → Live s →
    let p := s.params
    let act := registerByte s p.regAct
    let first := enableIntSession p a b act
    let bus1 := busAfter p first s.bus
    let drain := fifoSession p (fifoBytes p p.fifoDepth bus1)
    let bus2 := busAfter p drain bus1
    let tap := busByte p (readHead p p.regTapStatus) bus2
    let bus3 := busAfter p (readSession p p.regTapStatus tap) bus2
    let orient := busByte p (readHead p p.regOrientStatus) bus3
    ∃ t, exec (.enableInt a b) s = .next t ∧
      t.trace = s.trace ++ primRecords (first ++ drain ++ readSession p p.regTapStatus tap ++
        readSession p p.regOrientStatus orient) ++ [.arm, .resp 0 0] ∧
      t.savedAct = act ∧ t.tapStatus = tap ∧ t.tapWritten = true ∧ t.orientStatus = orient ∧
      t.orientWritten = true ∧ t.irqArmed = true ∧
      t.lineA = ⟨false, p.irqPriority, true⟩ ∧ t.lineB = ⟨false, p.irqPriority, true⟩ ∧
      t.fsm = s.fsm ∧ t.present = s.present ∧ SameConfig s t ∧ SameMemory s t ∧ SameInputs s t ∧ Responded t

/-- ENABLE_INT issues 62 + 6n primitives for n samples drained, at most 254 with a FIFO of 32; by the device contract
it writes 0 to `REG_ACT` first, the setup and tap bytes, the masks unchanged to `REG_CTRL_INT_EN` and the next
register, and the byte saved from `REG_ACT` last, and writes no other register (R43, R142 to R147). -/
def Obligations.EnableIntWritesTheRegistersInOrder : Prop :=
  ∀ (a b : Byte) (s : State), Idle s → Live s →
    let p := s.params
    ∃ t l n, exec (.enableInt a b) s = .next t ∧ t.trace = s.trace ++ primRecords l ++ [.arm, .resp 0 0] ∧
      l.length = 62 + 6 * n ∧ n ≤ p.fifoDepth.toNat ∧ (p.fifoDepth = 32 → l.length ≤ 254) ∧
      registerWrites p .idle l =
        [(p.regAct, 0), (p.regFifoSetup, p.fifoSetupOp), (p.regTapThsX, p.tapThsXOp),
         (p.regTapThsX + 1, p.tapThsYOp), (p.regTapThsX + 1 + 1, p.tapThsZOp),
         (p.regTapThsX + 1 + 1 + 1, p.tapTmltOp), (p.regTapThsX + 1 + 1 + 1 + 1, p.tapLtcyOp),
         (p.regTapThsX + 1 + 1 + 1 + 1 + 1, p.tapWindOp), (p.regCtrlIntEn, a), (p.regCtrlIntEn + 1, b),
         (p.regAct, t.savedAct)]

/-- If ENABLE_INT is stopped by the bus, `irq_armed` and the lines are as before and no ARM has been emitted (R151).
-/
def Obligations.StuckEnableIntDoesNotArm : Prop :=
  ∀ (a b : Byte) (s t : State), Idle s → exec (.enableInt a b) s = .next t → t.busy = true →
    SameArming s t ∧ ∃ l, t.trace = s.trace ++ l ∧ Record.arm ∉ l ∧ responsesOf l = []

/-- GET_RATE answers the cached rate without a primitive and writes no register; while no STARTUP has written the
cache the value is free, drawn afresh each time (R23, R152). That `cur_cmd` keeps the word after the response is the
model's reading (assumption 20), the counter `draws` and the free value it indexes are its choice (assumption 2). -/
def Obligations.GetRateAnswersTheCache : Prop :=
  ∀ s : State, s.busy = false →
    (s.cacheWritten = true →
      exec .getRate s = .next { s with
        curCmd := 0xA000000000000000, upc := 0, trace := s.trace ++ [.resp 0 (s.rate.setWidth 32)] }) ∧
    (s.cacheWritten = false →
      exec .getRate s = .next { s with
        curCmd := 0xA000000000000000, upc := 0, draws := s.draws + 1
        trace := s.trace ++ [.resp 0 ((Config.freeRate s.draws).setWidth 32)] })

/-- GET_FREQ answers the cached frequency in hundredths of a hertz, likewise (R23, R153). That `cur_cmd` keeps the
word after the response is the model's reading (assumption 20), the counter `draws` and the free value it indexes are
its choice (assumption 2). -/
def Obligations.GetFreqAnswersTheCache : Prop :=
  ∀ s : State, s.busy = false →
    (s.cacheWritten = true →
      exec .getFreq s = .next { s with
        curCmd := 0xB000000000000000, upc := 0, trace := s.trace ++ [.resp 0 (s.freqChz.setWidth 32)] }) ∧
    (s.cacheWritten = false →
      exec .getFreq s = .next { s with
        curCmd := 0xB000000000000000, upc := 0, draws := s.draws + 1
        trace := s.trace ++ [.resp 0 ((Config.freeFreq s.draws).setWidth 32)] })

/-! ### The FIFO decoder and the status readers -/

/-- READ_FIFO_LEN on an idle block: one read of `REG_STATUS`, not acknowledged, and its low 6 bits as the response,
unclamped (R160, R161). That `cur_cmd` keeps the word after the response
(assumption 20) and that `readByte` holds the byte read (assumption 15) are the model's reading. -/
def Obligations.ReadFifoLenMasksTheCount : Prop :=
  ∀ s : State, Idle s → Live s →
    let v := registerByte s s.params.regStatus
    exec .readFifoLen s = .next { s with
      fifoF := v.extractLsb' 0 6
      readByte := v
      curCmd := 0x5000000000000000
      upc := 0
      trace := s.trace ++ primRecords (readSession s.params s.params.regStatus v) ++ [.resp 0 ((v &&& 0x3F).setWidth 32)]
      bus := busAfter s.params (readSession s.params s.params.regStatus v) s.bus }

/-- READ_FIFO with maxEntries 0 opens no session and answers 0, storing path and discard path alike (R165). That
`cur_cmd` keeps the word after the response is the model's reading (assumption 20). -/
def Obligations.ReadFifoOfZeroEntries : Prop :=
  ∀ (store : Bool) (dest : Addr) (s : State), s.busy = false →
    exec (.readFifo store 0 dest) s = .next { s with
      curCmd := encodeCommand (.readFifo store 0 dest)
      upc := 0
      trace := s.trace ++ [.resp 0 0] }

/-- READ_FIFO with maxEntries at least 1 on an idle block: the session of R164, the status byte not acknowledged
exactly when no sample follows, each sample byte followed by its store when `store` is set, the response `min(count,
a)`; no register but the scratch ones changes (R162, R164, R166, R169). -/
def Obligations.ReadFifoTransfersTheBurst : Prop :=
  ∀ (store : Bool) (a : Byte) (dest : Addr) (s : State), a ≠ 0 → Idle s → Live s →
    let p := s.params
    let bytes := fifoBytes p a s.bus
    let n := fifoSamples p a s.bus
    ∃ t, exec (.readFifo store a dest) s = .next t ∧
      t.trace = s.trace ++ primRecords (readHead p p.regStatus) ++
        .prim (readPrim (n == 0) (registerByte s p.regStatus)) :: sampleRecords store dest 0 bytes.tail ++
        [.prim .busStop, .prim .busClose, .resp 0 (n.setWidth 32)] ∧
      bytes.length = 1 + 6 * n.toNat ∧
      n.toNat = min (registerByte s p.regStatus &&& 0x3F).toNat a.toNat ∧
      t.fifoF.toNat = (registerByte s p.regStatus &&& 0x3F).toNat ∧ t.fifoN = n ∧
      t.fsm = s.fsm ∧ t.present = s.present ∧ t.savedAct = s.savedAct ∧ SameConfig s t ∧ SameSnapshots s t ∧
      SameArming s t ∧ SameInputs s t ∧ Responded t

/-- With `store` set, wire byte `j` of the samples is at offset `6*(j/6) + ((j mod 6) ^ 1)` of the buffer, and no byte
at or beyond `dest + 6*n` is written, all modulo 2^32 (R47, R49, R167). -/
def Obligations.ReadFifoStoresOnlyTheBuffer : Prop :=
  ∀ (a : Byte) (dest : Addr) (s : State), a ≠ 0 → Idle s → Live s →
    let n := fifoSamples s.params a s.bus
    ∃ t, exec (.readFifo true a dest) s = .next t ∧
      (∀ j, j < 6 * n.toNat →
        t.sampleByte (dest + BitVec.ofNat 32 (6 * (j / 6) + (j % 6 ^^^ 1))) =
          (fifoBytes s.params a s.bus)[1 + j]?) ∧
      (∀ x : Addr, 6 * n.toNat ≤ (x - dest).toNat → t.sampleByte x = s.sampleByte x)

/-- Wherever the bus stops a READ_FIFO, the bytes at or beyond its buffer of `6 * min(a, 63)` bytes are as before, and
with `store` clear every byte is (R49, R168, R170, R217). -/
def Obligations.ReadFifoNeverWritesBeyondTheBuffer : Prop :=
  ∀ (store : Bool) (a : Byte) (dest : Addr) (s t : State), Idle s → exec (.readFifo store a dest) s = .next t →
    (∀ x : Addr, 6 * min a.toNat 63 ≤ (x - dest).toNat → t.sampleByte x = s.sampleByte x) ∧
    (store = false → SameMemory s t)

/-- The discard path issues the same primitives and gives the same result as the storing path, and stores nothing;
this on the same state and bus (R168). -/
def Obligations.DiscardDrainsLikeStoring : Prop :=
  ∀ (a : Byte) (dest dest' : Addr) (s : State), Idle s → Live s →
    ∃ t u l m v, exec (.readFifo true a dest) s = .next t ∧ exec (.readFifo false a dest') s = .next u ∧
      t.trace = s.trace ++ l ∧ u.trace = s.trace ++ m ∧ primsOf l = primsOf m ∧ responsesOf l = [(0, v)] ∧
      m = primRecords (primsOf m) ++ [.resp 0 v] ∧ t.bus = u.bus ∧ SameMemory s u

/-- A READ_FIFO of `n` samples issues `9 + 6n` primitives, at most 387, and acknowledges all its reads but the last;
wherever the bus stops it, it has issued no more, and `upc` is below that count while it waits (R17, R113, R164,
R166). -/
def Obligations.FifoBurstLength : Prop :=
  ∀ (store : Bool) (a : Byte) (dest : Addr) (s : State), Idle s →
    let n := (fifoSamples s.params a s.bus).toNat
    (a ≠ 0 → Live s →
      ∃ t l, ∃ (bs : List Byte) (v : Byte), exec (.readFifo store a dest) s = .next t ∧ t.trace = s.trace ++ l ∧
        primsOf l = readHead s.params s.params.regStatus ++ bs.map .rda ++ [.rdn v, .busStop, .busClose] ∧
        bs.length = 6 * n ∧ (primsOf l).length = 9 + 6 * n) ∧
    (∀ t, exec (.readFifo store a dest) s = .next t →
      (∃ l, t.trace = s.trace ++ l ∧ (primsOf l).length ≤ 9 + 6 * n) ∧ (t.busy = true → t.upc < 9 + 6 * n)) ∧
    9 + 6 * n ≤ 387

/-- READ_TAP on an idle block: one read of `REG_TAP_STATUS`, the byte cached in `tap_status` and answered
zero-extended (R181). That `cur_cmd` keeps the word after the response (assumption 20) and that `readByte` holds the
byte read (assumption 15) are the model's reading. -/
def Obligations.ReadTapCachesTheByte : Prop :=
  ∀ s : State, Idle s → Live s →
    let v := registerByte s s.params.regTapStatus
    exec .readTap s = .next { s with
      tapStatus := v
      tapWritten := true
      readByte := v
      curCmd := 0x7000000000000000
      upc := 0
      trace := s.trace ++ primRecords (readSession s.params s.params.regTapStatus v) ++ [.resp 0 (v.setWidth 32)]
      bus := busAfter s.params (readSession s.params s.params.regTapStatus v) s.bus }

/-- READ_ORIENT on an idle block: likewise for `REG_ORIENT_STATUS` and `orient_status` (R182). That `cur_cmd` keeps
the word after the response (assumption 20) and that `readByte` holds the byte read (assumption 15) are the model's
reading. -/
def Obligations.ReadOrientCachesTheByte : Prop :=
  ∀ s : State, Idle s → Live s →
    let v := registerByte s s.params.regOrientStatus
    exec .readOrient s = .next { s with
      orientStatus := v
      orientWritten := true
      readByte := v
      curCmd := 0x8000000000000000
      upc := 0
      trace := s.trace ++ primRecords (readSession s.params s.params.regOrientStatus v) ++ [.resp 0 (v.setWidth 32)]
      bus := busAfter s.params (readSession s.params s.params.regOrientStatus v) s.bus }

/-- READ_INT_SRC on an idle block: one read of `REG_INT_SOURCE`, answered and cached nowhere (R183). That `cur_cmd`
keeps the word after the response (assumption 20) and that `readByte` holds the byte read (assumption 15) are the
model's reading. -/
def Obligations.ReadIntSrcAnswersTheByte : Prop :=
  ∀ s : State, Idle s → Live s →
    let v := registerByte s s.params.regIntSource
    exec .readIntSrc s = .next { s with
      readByte := v
      curCmd := 0x9000000000000000
      upc := 0
      trace := s.trace ++ primRecords (readSession s.params s.params.regIntSource v) ++ [.resp 0 (v.setWidth 32)]
      bus := busAfter s.params (readSession s.params s.params.regIntSource v) s.bus }

/-! ### Frames, over every state and wherever the bus stops -/

/-- Only STARTUP writes the cached configuration; STANDBY in particular does not (R11 to R13, R140). -/
def Obligations.OnlyStartupWritesTheConfiguration : Prop :=
  ∀ (i : Instr) (s t : State), (∀ a b, i ≠ .startup a b) → exec i s = .next t → SameConfig s t

/-- Only VERIFY_ID writes `present`; STARTUP leaves it (R14, R133). -/
def Obligations.OnlyVerifyIdWritesPresent : Prop :=
  ∀ (i : Instr) (s t : State), i ≠ .verifyId → exec i s = .next t → t.present = s.present

/-- Only STARTUP and STANDBY change `fsm` (R16, R121). -/
def Obligations.OnlyStartupAndStandbyChangeFsm : Prop :=
  ∀ (i : Instr) (s t : State), (∀ a b, i ≠ .startup a b) → i ≠ .standby → exec i s = .next t → t.fsm = s.fsm

/-- Only READ_TAP and ENABLE_INT write `tap_status`, only READ_ORIENT and ENABLE_INT write `orient_status` (R15). -/
def Obligations.OnlyTheReadersWriteTheSnapshots : Prop :=
  ∀ (i : Instr) (s t : State), (∀ a b, i ≠ .enableInt a b) → exec i s = .next t →
    (i ≠ .readTap → t.tapStatus = s.tapStatus ∧ t.tapWritten = s.tapWritten) ∧
    (i ≠ .readOrient → t.orientStatus = s.orientStatus ∧ t.orientWritten = s.orientWritten)

/-- Only ENABLE_INT touches the interrupt lines and `saved_act`, and no instruction clears `irq_armed` (R19, R21). -/
def Obligations.OnlyEnableIntArms : Prop :=
  ∀ (i : Instr) (s t : State), exec i s = .next t →
    ((∀ a b, i ≠ .enableInt a b) → SameArming s t ∧ t.savedAct = s.savedAct) ∧
    (s.irqArmed = true → t.irqArmed = true)

/-- Only the FIFO commands and ENABLE_INT's drain write the FIFO scratch registers; READ_FIFO_LEN writes `fifo_f`
alone (R20, R160). -/
def Obligations.OnlyFifoCommandsWriteTheScratch : Prop :=
  ∀ (i : Instr) (s t : State), (∀ a b, i ≠ .enableInt a b) → (∀ st a d, i ≠ .readFifo st a d) → exec i s = .next t →
    (i ≠ .readFifoLen → t.fifoF = s.fifoF) ∧ t.fifoN = s.fifoN ∧ t.sampI = s.sampI ∧ t.byteK = s.byteK

/-- Only READ_FIFO with `store` set writes sample memory (R47, R168). -/
def Obligations.OnlyStoringReadFifoWritesMemory : Prop :=
  ∀ (i : Instr) (s t : State), (∀ a d, i ≠ .readFifo true a d) → exec i s = .next t → SameMemory s t

/-- No step changes the parameters (R5, R35), removes a record from the trace (R52), or, while the block is busy,
takes a word off the command channel; and an instruction takes nothing off any channel. -/
def Obligations.TraceGrowsAndParametersStay : Prop :=
  (∀ s t : State, step s = .next t → t.params = s.params ∧ ∃ l, t.trace = s.trace ++ l) ∧
  (∀ (i : Instr) (s t : State), exec i s = .next t → SameInputs s t)

/-! ### The machine as a whole -/

/-- Every command on an idle block with a bus that completes what it is given ends with exactly one response, of code
0, as its last record, and leaves the block idle (R17, R53, R66, R191). -/
def Obligations.EveryCommandRespondsOnce : Prop :=
  ∀ (i : Instr) (s : State), i.isCommand = true → Idle s → Live s →
    ∃ t l v, exec i s = .next t ∧ t.trace = s.trace ++ l ++ [.resp 0 v] ∧ responsesOf l = [] ∧ Responded t

/-- A command that the bus stops after fewer primitives than it needs waits: `busy` stays 1, there is no response,
`upc` counts the primitives completed, and further steps change nothing (R17, R91, R194, R222). That
a stuck block steps to itself is the model's reading (assumption 6). -/
def Obligations.StuckCommandWaitsForEver : Prop :=
  ∀ (i : Instr) (k : Nat) (s t : State), i.isCommand = true → Idle s → s.resetPin = false →
    s.bus.completes = some k → exec i s = .next t → t.busy = true →
    t.upc = k ∧ step t = .next t ∧ ∃ l, t.trace = s.trace ++ l ∧ responsesOf l = [] ∧ (primsOf l).length = k

/-- A slow bus gives the same result: a command stopped after `k` primitives and gone on with when the bus completes
everything ends in the state of the command run without a stop (R91, R222). That a command can be gone on with at all
is read from R17's micro-step position. -/
def Obligations.SlowBusGivesTheSameResult : Prop :=
  ∀ (i : Instr) (k : Nat) (s t : State), i.isCommand = true → Idle s → s.resetPin = false →
    s.bus.completes = some k → exec i s = .next t → t.busy = true →
    ∃ u, step { t with bus := { t.bus with completes := none } } = .next u ∧
      exec i { s with bus := { s.bus with completes := none } } = .next u

/-- Every step keeps the local invariant. -/
def Obligations.StepKeepsLocalInv : Prop :=
  ∀ s t : State, LocalInv s → step s = .next t → LocalInv t

/-- The reset state has the local invariant. -/
def Obligations.ResetHasLocalInv : Prop := LocalInv State.reset

/-- Every step keeps the command invariant: between commands the session is closed and `fsm` is not CONFIGURING; a
running command stands at a primitive. -/
def Obligations.StepKeepsCommandInv : Prop :=
  ∀ s t : State, CommandInv s → step s = .next t → CommandInv t

/-- The reset state has the command invariant. -/
def Obligations.ResetHasCommandInv : Prop := CommandInv State.reset

/-- From a state with the command invariant, and unless a reserved record stands on the primitive channel, a step
always answers a next state: the block has no fault and no other refusal (R108, R191). -/
def Obligations.StepNeverStops : Prop :=
  ∀ s : State, CommandInv s → s.primIn = none → ∃ t, step s = .next t ∧ t.primIn = none
end

