-- ==== Sys2Proof/Laws/State.lean ====
section
/-! SUPPORT. What each update of the state leaves in each field, so that no later proof unfolds a record update. -/

namespace Sys2Proof.Machine

@[simp] theorem completePrim_rate (q : Prim) (s : State) : (completePrim q s).rate = s.rate := rfl
@[simp] theorem completePrim_range (q : Prim) (s : State) : (completePrim q s).range = s.range := rfl
@[simp] theorem completePrim_freqChz (q : Prim) (s : State) : (completePrim q s).freqChz = s.freqChz := rfl
@[simp] theorem completePrim_cacheWritten (q : Prim) (s : State) : (completePrim q s).cacheWritten = s.cacheWritten := rfl
@[simp] theorem completePrim_present (q : Prim) (s : State) : (completePrim q s).present = s.present := rfl
@[simp] theorem completePrim_tapStatus (q : Prim) (s : State) : (completePrim q s).tapStatus = s.tapStatus := rfl
@[simp] theorem completePrim_tapWritten (q : Prim) (s : State) : (completePrim q s).tapWritten = s.tapWritten := rfl
@[simp] theorem completePrim_orientStatus (q : Prim) (s : State) : (completePrim q s).orientStatus = s.orientStatus := rfl
@[simp] theorem completePrim_orientWritten (q : Prim) (s : State) : (completePrim q s).orientWritten = s.orientWritten := rfl
@[simp] theorem completePrim_fsm (q : Prim) (s : State) : (completePrim q s).fsm = s.fsm := rfl
@[simp] theorem completePrim_busy (q : Prim) (s : State) : (completePrim q s).busy = s.busy := rfl
@[simp] theorem completePrim_upc (q : Prim) (s : State) : (completePrim q s).upc = (if s.busy then s.upc + 1 else s.upc) := rfl
@[simp] theorem completePrim_sess (q : Prim) (s : State) : (completePrim q s).sess = s.sess := rfl
@[simp] theorem completePrim_savedAct (q : Prim) (s : State) : (completePrim q s).savedAct = s.savedAct := rfl
@[simp] theorem completePrim_fifoF (q : Prim) (s : State) : (completePrim q s).fifoF = s.fifoF := rfl
@[simp] theorem completePrim_fifoN (q : Prim) (s : State) : (completePrim q s).fifoN = s.fifoN := rfl
@[simp] theorem completePrim_sampI (q : Prim) (s : State) : (completePrim q s).sampI = s.sampI := rfl
@[simp] theorem completePrim_byteK (q : Prim) (s : State) : (completePrim q s).byteK = s.byteK := rfl
@[simp] theorem completePrim_irqArmed (q : Prim) (s : State) : (completePrim q s).irqArmed = s.irqArmed := rfl
@[simp] theorem completePrim_curCmd (q : Prim) (s : State) : (completePrim q s).curCmd = s.curCmd := rfl
@[simp] theorem completePrim_readByte (q : Prim) (s : State) : (completePrim q s).readByte = q.returned s.readByte := rfl
@[simp] theorem completePrim_trace (q : Prim) (s : State) : (completePrim q s).trace = s.trace ++ [.prim q] := rfl
@[simp] theorem completePrim_mem (q : Prim) (s : State) : (completePrim q s).mem = s.mem := rfl
@[simp] theorem completePrim_cmdIn (q : Prim) (s : State) : (completePrim q s).cmdIn = s.cmdIn := rfl
@[simp] theorem completePrim_primIn (q : Prim) (s : State) : (completePrim q s).primIn = s.primIn := rfl
@[simp] theorem completePrim_resetPin (q : Prim) (s : State) : (completePrim q s).resetPin = s.resetPin := rfl
@[simp] theorem completePrim_bus (q : Prim) (s : State) : (completePrim q s).bus = s.bus.after s.params q := rfl
@[simp] theorem completePrim_lineA (q : Prim) (s : State) : (completePrim q s).lineA = s.lineA := rfl
@[simp] theorem completePrim_lineB (q : Prim) (s : State) : (completePrim q s).lineB = s.lineB := rfl
@[simp] theorem completePrim_draws (q : Prim) (s : State) : (completePrim q s).draws = s.draws := rfl
@[simp] theorem completePrim_params (q : Prim) (s : State) : (completePrim q s).params = s.params := rfl

@[simp] theorem storeSample_rate (a : Addr) (v : Byte) (s : State) : (storeSample a v s).rate = s.rate := rfl
@[simp] theorem storeSample_range (a : Addr) (v : Byte) (s : State) : (storeSample a v s).range = s.range := rfl
@[simp] theorem storeSample_freqChz (a : Addr) (v : Byte) (s : State) : (storeSample a v s).freqChz = s.freqChz := rfl
@[simp] theorem storeSample_cacheWritten (a : Addr) (v : Byte) (s : State) : (storeSample a v s).cacheWritten = s.cacheWritten := rfl
@[simp] theorem storeSample_present (a : Addr) (v : Byte) (s : State) : (storeSample a v s).present = s.present := rfl
@[simp] theorem storeSample_tapStatus (a : Addr) (v : Byte) (s : State) : (storeSample a v s).tapStatus = s.tapStatus := rfl
@[simp] theorem storeSample_tapWritten (a : Addr) (v : Byte) (s : State) : (storeSample a v s).tapWritten = s.tapWritten := rfl
@[simp] theorem storeSample_orientStatus (a : Addr) (v : Byte) (s : State) : (storeSample a v s).orientStatus = s.orientStatus := rfl
@[simp] theorem storeSample_orientWritten (a : Addr) (v : Byte) (s : State) : (storeSample a v s).orientWritten = s.orientWritten := rfl
@[simp] theorem storeSample_fsm (a : Addr) (v : Byte) (s : State) : (storeSample a v s).fsm = s.fsm := rfl
@[simp] theorem storeSample_busy (a : Addr) (v : Byte) (s : State) : (storeSample a v s).busy = s.busy := rfl
@[simp] theorem storeSample_upc (a : Addr) (v : Byte) (s : State) : (storeSample a v s).upc = s.upc := rfl
@[simp] theorem storeSample_sess (a : Addr) (v : Byte) (s : State) : (storeSample a v s).sess = s.sess := rfl
@[simp] theorem storeSample_savedAct (a : Addr) (v : Byte) (s : State) : (storeSample a v s).savedAct = s.savedAct := rfl
@[simp] theorem storeSample_fifoF (a : Addr) (v : Byte) (s : State) : (storeSample a v s).fifoF = s.fifoF := rfl
@[simp] theorem storeSample_fifoN (a : Addr) (v : Byte) (s : State) : (storeSample a v s).fifoN = s.fifoN := rfl
@[simp] theorem storeSample_sampI (a : Addr) (v : Byte) (s : State) : (storeSample a v s).sampI = s.sampI := rfl
@[simp] theorem storeSample_byteK (a : Addr) (v : Byte) (s : State) : (storeSample a v s).byteK = s.byteK := rfl
@[simp] theorem storeSample_irqArmed (a : Addr) (v : Byte) (s : State) : (storeSample a v s).irqArmed = s.irqArmed := rfl
@[simp] theorem storeSample_curCmd (a : Addr) (v : Byte) (s : State) : (storeSample a v s).curCmd = s.curCmd := rfl
@[simp] theorem storeSample_readByte (a : Addr) (v : Byte) (s : State) : (storeSample a v s).readByte = s.readByte := rfl
@[simp] theorem storeSample_trace (a : Addr) (v : Byte) (s : State) : (storeSample a v s).trace = s.trace ++ [.mw a v] := rfl
@[simp] theorem storeSample_mem (a : Addr) (v : Byte) (s : State) : (storeSample a v s).mem = memWrite s.mem a.toNat v := rfl
@[simp] theorem storeSample_cmdIn (a : Addr) (v : Byte) (s : State) : (storeSample a v s).cmdIn = s.cmdIn := rfl
@[simp] theorem storeSample_primIn (a : Addr) (v : Byte) (s : State) : (storeSample a v s).primIn = s.primIn := rfl
@[simp] theorem storeSample_resetPin (a : Addr) (v : Byte) (s : State) : (storeSample a v s).resetPin = s.resetPin := rfl
@[simp] theorem storeSample_bus (a : Addr) (v : Byte) (s : State) : (storeSample a v s).bus = s.bus := rfl
@[simp] theorem storeSample_lineA (a : Addr) (v : Byte) (s : State) : (storeSample a v s).lineA = s.lineA := rfl
@[simp] theorem storeSample_lineB (a : Addr) (v : Byte) (s : State) : (storeSample a v s).lineB = s.lineB := rfl
@[simp] theorem storeSample_draws (a : Addr) (v : Byte) (s : State) : (storeSample a v s).draws = s.draws := rfl
@[simp] theorem storeSample_params (a : Addr) (v : Byte) (s : State) : (storeSample a v s).params = s.params := rfl

@[simp] theorem respond_rate (c : Byte) (v : BitVec 32) (s : State) : (respond c v s).rate = s.rate := rfl
@[simp] theorem respond_range (c : Byte) (v : BitVec 32) (s : State) : (respond c v s).range = s.range := rfl
@[simp] theorem respond_freqChz (c : Byte) (v : BitVec 32) (s : State) : (respond c v s).freqChz = s.freqChz := rfl
@[simp] theorem respond_cacheWritten (c : Byte) (v : BitVec 32) (s : State) : (respond c v s).cacheWritten = s.cacheWritten := rfl
@[simp] theorem respond_present (c : Byte) (v : BitVec 32) (s : State) : (respond c v s).present = s.present := rfl
@[simp] theorem respond_tapStatus (c : Byte) (v : BitVec 32) (s : State) : (respond c v s).tapStatus = s.tapStatus := rfl
@[simp] theorem respond_tapWritten (c : Byte) (v : BitVec 32) (s : State) : (respond c v s).tapWritten = s.tapWritten := rfl
@[simp] theorem respond_orientStatus (c : Byte) (v : BitVec 32) (s : State) : (respond c v s).orientStatus = s.orientStatus := rfl
@[simp] theorem respond_orientWritten (c : Byte) (v : BitVec 32) (s : State) : (respond c v s).orientWritten = s.orientWritten := rfl
@[simp] theorem respond_fsm (c : Byte) (v : BitVec 32) (s : State) : (respond c v s).fsm = s.fsm := rfl
@[simp] theorem respond_busy (c : Byte) (v : BitVec 32) (s : State) : (respond c v s).busy = false := rfl
@[simp] theorem respond_upc (c : Byte) (v : BitVec 32) (s : State) : (respond c v s).upc = 0 := rfl
@[simp] theorem respond_sess (c : Byte) (v : BitVec 32) (s : State) : (respond c v s).sess = s.sess := rfl
@[simp] theorem respond_savedAct (c : Byte) (v : BitVec 32) (s : State) : (respond c v s).savedAct = s.savedAct := rfl
@[simp] theorem respond_fifoF (c : Byte) (v : BitVec 32) (s : State) : (respond c v s).fifoF = s.fifoF := rfl
@[simp] theorem respond_fifoN (c : Byte) (v : BitVec 32) (s : State) : (respond c v s).fifoN = s.fifoN := rfl
@[simp] theorem respond_sampI (c : Byte) (v : BitVec 32) (s : State) : (respond c v s).sampI = s.sampI := rfl
@[simp] theorem respond_byteK (c : Byte) (v : BitVec 32) (s : State) : (respond c v s).byteK = s.byteK := rfl
@[simp] theorem respond_irqArmed (c : Byte) (v : BitVec 32) (s : State) : (respond c v s).irqArmed = s.irqArmed := rfl
@[simp] theorem respond_curCmd (c : Byte) (v : BitVec 32) (s : State) : (respond c v s).curCmd = s.curCmd := rfl
@[simp] theorem respond_readByte (c : Byte) (v : BitVec 32) (s : State) : (respond c v s).readByte = s.readByte := rfl
@[simp] theorem respond_trace (c : Byte) (v : BitVec 32) (s : State) : (respond c v s).trace = s.trace ++ [.resp c v] := rfl
@[simp] theorem respond_mem (c : Byte) (v : BitVec 32) (s : State) : (respond c v s).mem = s.mem := rfl
@[simp] theorem respond_cmdIn (c : Byte) (v : BitVec 32) (s : State) : (respond c v s).cmdIn = s.cmdIn := rfl
@[simp] theorem respond_primIn (c : Byte) (v : BitVec 32) (s : State) : (respond c v s).primIn = s.primIn := rfl
@[simp] theorem respond_resetPin (c : Byte) (v : BitVec 32) (s : State) : (respond c v s).resetPin = s.resetPin := rfl
@[simp] theorem respond_bus (c : Byte) (v : BitVec 32) (s : State) : (respond c v s).bus = s.bus := rfl
@[simp] theorem respond_lineA (c : Byte) (v : BitVec 32) (s : State) : (respond c v s).lineA = s.lineA := rfl
@[simp] theorem respond_lineB (c : Byte) (v : BitVec 32) (s : State) : (respond c v s).lineB = s.lineB := rfl
@[simp] theorem respond_draws (c : Byte) (v : BitVec 32) (s : State) : (respond c v s).draws = s.draws := rfl
@[simp] theorem respond_params (c : Byte) (v : BitVec 32) (s : State) : (respond c v s).params = s.params := rfl

@[simp] theorem accept_rate (i : Instr) (s : State) : (accept i s).rate = s.rate := rfl
@[simp] theorem accept_range (i : Instr) (s : State) : (accept i s).range = s.range := rfl
@[simp] theorem accept_freqChz (i : Instr) (s : State) : (accept i s).freqChz = s.freqChz := rfl
@[simp] theorem accept_cacheWritten (i : Instr) (s : State) : (accept i s).cacheWritten = s.cacheWritten := rfl
@[simp] theorem accept_present (i : Instr) (s : State) : (accept i s).present = s.present := rfl
@[simp] theorem accept_tapStatus (i : Instr) (s : State) : (accept i s).tapStatus = s.tapStatus := rfl
@[simp] theorem accept_tapWritten (i : Instr) (s : State) : (accept i s).tapWritten = s.tapWritten := rfl
@[simp] theorem accept_orientStatus (i : Instr) (s : State) : (accept i s).orientStatus = s.orientStatus := rfl
@[simp] theorem accept_orientWritten (i : Instr) (s : State) : (accept i s).orientWritten = s.orientWritten := rfl
@[simp] theorem accept_fsm (i : Instr) (s : State) : (accept i s).fsm = s.fsm := rfl
@[simp] theorem accept_busy (i : Instr) (s : State) : (accept i s).busy = true := rfl
@[simp] theorem accept_upc (i : Instr) (s : State) : (accept i s).upc = 0 := rfl
@[simp] theorem accept_sess (i : Instr) (s : State) : (accept i s).sess = s.sess := rfl
@[simp] theorem accept_savedAct (i : Instr) (s : State) : (accept i s).savedAct = s.savedAct := rfl
@[simp] theorem accept_fifoF (i : Instr) (s : State) : (accept i s).fifoF = s.fifoF := rfl
@[simp] theorem accept_fifoN (i : Instr) (s : State) : (accept i s).fifoN = s.fifoN := rfl
@[simp] theorem accept_sampI (i : Instr) (s : State) : (accept i s).sampI = s.sampI := rfl
@[simp] theorem accept_byteK (i : Instr) (s : State) : (accept i s).byteK = s.byteK := rfl
@[simp] theorem accept_irqArmed (i : Instr) (s : State) : (accept i s).irqArmed = s.irqArmed := rfl
@[simp] theorem accept_curCmd (i : Instr) (s : State) : (accept i s).curCmd = encodeCommand i := rfl
@[simp] theorem accept_readByte (i : Instr) (s : State) : (accept i s).readByte = s.readByte := rfl
@[simp] theorem accept_trace (i : Instr) (s : State) : (accept i s).trace = s.trace := rfl
@[simp] theorem accept_mem (i : Instr) (s : State) : (accept i s).mem = s.mem := rfl
@[simp] theorem accept_cmdIn (i : Instr) (s : State) : (accept i s).cmdIn = s.cmdIn := rfl
@[simp] theorem accept_primIn (i : Instr) (s : State) : (accept i s).primIn = s.primIn := rfl
@[simp] theorem accept_resetPin (i : Instr) (s : State) : (accept i s).resetPin = s.resetPin := rfl
@[simp] theorem accept_bus (i : Instr) (s : State) : (accept i s).bus = s.bus := rfl
@[simp] theorem accept_lineA (i : Instr) (s : State) : (accept i s).lineA = s.lineA := rfl
@[simp] theorem accept_lineB (i : Instr) (s : State) : (accept i s).lineB = s.lineB := rfl
@[simp] theorem accept_draws (i : Instr) (s : State) : (accept i s).draws = s.draws := rfl
@[simp] theorem accept_params (i : Instr) (s : State) : (accept i s).params = s.params := rfl

@[simp] theorem armIrq_rate (s : State) : (armIrq s).rate = s.rate := rfl
@[simp] theorem armIrq_range (s : State) : (armIrq s).range = s.range := rfl
@[simp] theorem armIrq_freqChz (s : State) : (armIrq s).freqChz = s.freqChz := rfl
@[simp] theorem armIrq_cacheWritten (s : State) : (armIrq s).cacheWritten = s.cacheWritten := rfl
@[simp] theorem armIrq_present (s : State) : (armIrq s).present = s.present := rfl
@[simp] theorem armIrq_tapStatus (s : State) : (armIrq s).tapStatus = s.tapStatus := rfl
@[simp] theorem armIrq_tapWritten (s : State) : (armIrq s).tapWritten = s.tapWritten := rfl
@[simp] theorem armIrq_orientStatus (s : State) : (armIrq s).orientStatus = s.orientStatus := rfl
@[simp] theorem armIrq_orientWritten (s : State) : (armIrq s).orientWritten = s.orientWritten := rfl
@[simp] theorem armIrq_fsm (s : State) : (armIrq s).fsm = s.fsm := rfl
@[simp] theorem armIrq_busy (s : State) : (armIrq s).busy = s.busy := rfl
@[simp] theorem armIrq_upc (s : State) : (armIrq s).upc = s.upc := rfl
@[simp] theorem armIrq_sess (s : State) : (armIrq s).sess = s.sess := rfl
@[simp] theorem armIrq_savedAct (s : State) : (armIrq s).savedAct = s.savedAct := rfl
@[simp] theorem armIrq_fifoF (s : State) : (armIrq s).fifoF = s.fifoF := rfl
@[simp] theorem armIrq_fifoN (s : State) : (armIrq s).fifoN = s.fifoN := rfl
@[simp] theorem armIrq_sampI (s : State) : (armIrq s).sampI = s.sampI := rfl
@[simp] theorem armIrq_byteK (s : State) : (armIrq s).byteK = s.byteK := rfl
@[simp] theorem armIrq_irqArmed (s : State) : (armIrq s).irqArmed = true := rfl
@[simp] theorem armIrq_curCmd (s : State) : (armIrq s).curCmd = s.curCmd := rfl
@[simp] theorem armIrq_readByte (s : State) : (armIrq s).readByte = s.readByte := rfl
@[simp] theorem armIrq_trace (s : State) : (armIrq s).trace = s.trace ++ [.arm] := rfl
@[simp] theorem armIrq_mem (s : State) : (armIrq s).mem = s.mem := rfl
@[simp] theorem armIrq_cmdIn (s : State) : (armIrq s).cmdIn = s.cmdIn := rfl
@[simp] theorem armIrq_primIn (s : State) : (armIrq s).primIn = s.primIn := rfl
@[simp] theorem armIrq_resetPin (s : State) : (armIrq s).resetPin = s.resetPin := rfl
@[simp] theorem armIrq_bus (s : State) : (armIrq s).bus = s.bus := rfl
@[simp] theorem armIrq_lineA (s : State) : (armIrq s).lineA = s.lineA.arm s.params := rfl
@[simp] theorem armIrq_lineB (s : State) : (armIrq s).lineB = s.lineB.arm s.params := rfl
@[simp] theorem armIrq_draws (s : State) : (armIrq s).draws = s.draws := rfl
@[simp] theorem armIrq_params (s : State) : (armIrq s).params = s.params := rfl

@[simp] theorem raiseIllegalCommand_rate (w : CmdWord) (s : State) : (raiseIllegalCommand w s).rate = s.rate := rfl
@[simp] theorem raiseIllegalCommand_range (w : CmdWord) (s : State) : (raiseIllegalCommand w s).range = s.range := rfl
@[simp] theorem raiseIllegalCommand_freqChz (w : CmdWord) (s : State) : (raiseIllegalCommand w s).freqChz = s.freqChz := rfl
@[simp] theorem raiseIllegalCommand_cacheWritten (w : CmdWord) (s : State) : (raiseIllegalCommand w s).cacheWritten = s.cacheWritten := rfl
@[simp] theorem raiseIllegalCommand_present (w : CmdWord) (s : State) : (raiseIllegalCommand w s).present = s.present := rfl
@[simp] theorem raiseIllegalCommand_tapStatus (w : CmdWord) (s : State) : (raiseIllegalCommand w s).tapStatus = s.tapStatus := rfl
@[simp] theorem raiseIllegalCommand_tapWritten (w : CmdWord) (s : State) : (raiseIllegalCommand w s).tapWritten = s.tapWritten := rfl
@[simp] theorem raiseIllegalCommand_orientStatus (w : CmdWord) (s : State) : (raiseIllegalCommand w s).orientStatus = s.orientStatus := rfl
@[simp] theorem raiseIllegalCommand_orientWritten (w : CmdWord) (s : State) : (raiseIllegalCommand w s).orientWritten = s.orientWritten := rfl
@[simp] theorem raiseIllegalCommand_fsm (w : CmdWord) (s : State) : (raiseIllegalCommand w s).fsm = s.fsm := rfl
@[simp] theorem raiseIllegalCommand_busy (w : CmdWord) (s : State) : (raiseIllegalCommand w s).busy = false := rfl
@[simp] theorem raiseIllegalCommand_upc (w : CmdWord) (s : State) : (raiseIllegalCommand w s).upc = 0 := rfl
@[simp] theorem raiseIllegalCommand_sess (w : CmdWord) (s : State) : (raiseIllegalCommand w s).sess = s.sess := rfl
@[simp] theorem raiseIllegalCommand_savedAct (w : CmdWord) (s : State) : (raiseIllegalCommand w s).savedAct = s.savedAct := rfl
@[simp] theorem raiseIllegalCommand_fifoF (w : CmdWord) (s : State) : (raiseIllegalCommand w s).fifoF = s.fifoF := rfl
@[simp] theorem raiseIllegalCommand_fifoN (w : CmdWord) (s : State) : (raiseIllegalCommand w s).fifoN = s.fifoN := rfl
@[simp] theorem raiseIllegalCommand_sampI (w : CmdWord) (s : State) : (raiseIllegalCommand w s).sampI = s.sampI := rfl
@[simp] theorem raiseIllegalCommand_byteK (w : CmdWord) (s : State) : (raiseIllegalCommand w s).byteK = s.byteK := rfl
@[simp] theorem raiseIllegalCommand_irqArmed (w : CmdWord) (s : State) : (raiseIllegalCommand w s).irqArmed = s.irqArmed := rfl
@[simp] theorem raiseIllegalCommand_curCmd (w : CmdWord) (s : State) : (raiseIllegalCommand w s).curCmd = w := rfl
@[simp] theorem raiseIllegalCommand_readByte (w : CmdWord) (s : State) : (raiseIllegalCommand w s).readByte = s.readByte := rfl
@[simp] theorem raiseIllegalCommand_trace (w : CmdWord) (s : State) : (raiseIllegalCommand w s).trace = s.trace ++ [.resp 1 0] := rfl
@[simp] theorem raiseIllegalCommand_mem (w : CmdWord) (s : State) : (raiseIllegalCommand w s).mem = s.mem := rfl
@[simp] theorem raiseIllegalCommand_cmdIn (w : CmdWord) (s : State) : (raiseIllegalCommand w s).cmdIn = s.cmdIn := rfl
@[simp] theorem raiseIllegalCommand_primIn (w : CmdWord) (s : State) : (raiseIllegalCommand w s).primIn = s.primIn := rfl
@[simp] theorem raiseIllegalCommand_resetPin (w : CmdWord) (s : State) : (raiseIllegalCommand w s).resetPin = s.resetPin := rfl
@[simp] theorem raiseIllegalCommand_bus (w : CmdWord) (s : State) : (raiseIllegalCommand w s).bus = s.bus := rfl
@[simp] theorem raiseIllegalCommand_lineA (w : CmdWord) (s : State) : (raiseIllegalCommand w s).lineA = s.lineA := rfl
@[simp] theorem raiseIllegalCommand_lineB (w : CmdWord) (s : State) : (raiseIllegalCommand w s).lineB = s.lineB := rfl
@[simp] theorem raiseIllegalCommand_draws (w : CmdWord) (s : State) : (raiseIllegalCommand w s).draws = s.draws := rfl
@[simp] theorem raiseIllegalCommand_params (w : CmdWord) (s : State) : (raiseIllegalCommand w s).params = s.params := rfl

@[simp] theorem applyReset_rate (s : State) : (applyReset s).rate = 0 := rfl
@[simp] theorem applyReset_range (s : State) : (applyReset s).range = 0 := rfl
@[simp] theorem applyReset_freqChz (s : State) : (applyReset s).freqChz = 0 := rfl
@[simp] theorem applyReset_cacheWritten (s : State) : (applyReset s).cacheWritten = false := rfl
@[simp] theorem applyReset_present (s : State) : (applyReset s).present = false := rfl
@[simp] theorem applyReset_tapStatus (s : State) : (applyReset s).tapStatus = 0 := rfl
@[simp] theorem applyReset_tapWritten (s : State) : (applyReset s).tapWritten = false := rfl
@[simp] theorem applyReset_orientStatus (s : State) : (applyReset s).orientStatus = 0 := rfl
@[simp] theorem applyReset_orientWritten (s : State) : (applyReset s).orientWritten = false := rfl
@[simp] theorem applyReset_fsm (s : State) : (applyReset s).fsm = .standby := rfl
@[simp] theorem applyReset_busy (s : State) : (applyReset s).busy = false := rfl
@[simp] theorem applyReset_upc (s : State) : (applyReset s).upc = 0 := rfl
@[simp] theorem applyReset_sess (s : State) : (applyReset s).sess = .closed := rfl
@[simp] theorem applyReset_savedAct (s : State) : (applyReset s).savedAct = 0 := rfl
@[simp] theorem applyReset_fifoF (s : State) : (applyReset s).fifoF = 0 := rfl
@[simp] theorem applyReset_fifoN (s : State) : (applyReset s).fifoN = 0 := rfl
@[simp] theorem applyReset_sampI (s : State) : (applyReset s).sampI = 0 := rfl
@[simp] theorem applyReset_byteK (s : State) : (applyReset s).byteK = 0 := rfl
@[simp] theorem applyReset_irqArmed (s : State) : (applyReset s).irqArmed = false := rfl
@[simp] theorem applyReset_curCmd (s : State) : (applyReset s).curCmd = 0 := rfl
@[simp] theorem applyReset_readByte (s : State) : (applyReset s).readByte = 0 := rfl
@[simp] theorem applyReset_trace (s : State) : (applyReset s).trace = s.trace := rfl
@[simp] theorem applyReset_mem (s : State) : (applyReset s).mem = s.mem := rfl
@[simp] theorem applyReset_cmdIn (s : State) : (applyReset s).cmdIn = s.cmdIn := rfl
@[simp] theorem applyReset_primIn (s : State) : (applyReset s).primIn = s.primIn := rfl
@[simp] theorem applyReset_resetPin (s : State) : (applyReset s).resetPin = false := rfl
@[simp] theorem applyReset_bus (s : State) : (applyReset s).bus = s.bus.afterReset s.busy := rfl
@[simp] theorem applyReset_lineA (s : State) : (applyReset s).lineA = s.lineA := rfl
@[simp] theorem applyReset_lineB (s : State) : (applyReset s).lineB = s.lineB := rfl
@[simp] theorem applyReset_draws (s : State) : (applyReset s).draws = s.draws := rfl
@[simp] theorem applyReset_params (s : State) : (applyReset s).params = s.params := rfl

@[simp] theorem completeRead_rate (nack : Bool) (s : State) : (completeRead nack s).rate = s.rate := by cases nack <;> rfl
@[simp] theorem completeRead_range (nack : Bool) (s : State) : (completeRead nack s).range = s.range := by cases nack <;> rfl
@[simp] theorem completeRead_freqChz (nack : Bool) (s : State) : (completeRead nack s).freqChz = s.freqChz := by cases nack <;> rfl
@[simp] theorem completeRead_cacheWritten (nack : Bool) (s : State) : (completeRead nack s).cacheWritten = s.cacheWritten := by cases nack <;> rfl
@[simp] theorem completeRead_present (nack : Bool) (s : State) : (completeRead nack s).present = s.present := by cases nack <;> rfl
@[simp] theorem completeRead_tapStatus (nack : Bool) (s : State) : (completeRead nack s).tapStatus = s.tapStatus := by cases nack <;> rfl
@[simp] theorem completeRead_tapWritten (nack : Bool) (s : State) : (completeRead nack s).tapWritten = s.tapWritten := by cases nack <;> rfl
@[simp] theorem completeRead_orientStatus (nack : Bool) (s : State) : (completeRead nack s).orientStatus = s.orientStatus := by cases nack <;> rfl
@[simp] theorem completeRead_orientWritten (nack : Bool) (s : State) : (completeRead nack s).orientWritten = s.orientWritten := by cases nack <;> rfl
@[simp] theorem completeRead_fsm (nack : Bool) (s : State) : (completeRead nack s).fsm = s.fsm := by cases nack <;> rfl
@[simp] theorem completeRead_busy (nack : Bool) (s : State) : (completeRead nack s).busy = s.busy := by cases nack <;> rfl
@[simp] theorem completeRead_upc (nack : Bool) (s : State) : (completeRead nack s).upc = (if s.busy then s.upc + 1 else s.upc) := by cases nack <;> rfl
@[simp] theorem completeRead_sess (nack : Bool) (s : State) : (completeRead nack s).sess = (if nack then .rdone else s.sess) := by cases nack <;> rfl
@[simp] theorem completeRead_savedAct (nack : Bool) (s : State) : (completeRead nack s).savedAct = s.savedAct := by cases nack <;> rfl
@[simp] theorem completeRead_fifoF (nack : Bool) (s : State) : (completeRead nack s).fifoF = s.fifoF := by cases nack <;> rfl
@[simp] theorem completeRead_fifoN (nack : Bool) (s : State) : (completeRead nack s).fifoN = s.fifoN := by cases nack <;> rfl
@[simp] theorem completeRead_sampI (nack : Bool) (s : State) : (completeRead nack s).sampI = s.sampI := by cases nack <;> rfl
@[simp] theorem completeRead_byteK (nack : Bool) (s : State) : (completeRead nack s).byteK = s.byteK := by cases nack <;> rfl
@[simp] theorem completeRead_irqArmed (nack : Bool) (s : State) : (completeRead nack s).irqArmed = s.irqArmed := by cases nack <;> rfl
@[simp] theorem completeRead_curCmd (nack : Bool) (s : State) : (completeRead nack s).curCmd = s.curCmd := by cases nack <;> rfl
@[simp] theorem completeRead_readByte (nack : Bool) (s : State) : (completeRead nack s).readByte = s.bus.supply s.params := by cases nack <;> rfl
@[simp] theorem completeRead_trace (nack : Bool) (s : State) : (completeRead nack s).trace = s.trace ++ [.prim (readPrim nack (s.bus.supply s.params))] := by cases nack <;> rfl
@[simp] theorem completeRead_mem (nack : Bool) (s : State) : (completeRead nack s).mem = s.mem := by cases nack <;> rfl
@[simp] theorem completeRead_cmdIn (nack : Bool) (s : State) : (completeRead nack s).cmdIn = s.cmdIn := by cases nack <;> rfl
@[simp] theorem completeRead_primIn (nack : Bool) (s : State) : (completeRead nack s).primIn = s.primIn := by cases nack <;> rfl
@[simp] theorem completeRead_resetPin (nack : Bool) (s : State) : (completeRead nack s).resetPin = s.resetPin := by cases nack <;> rfl
@[simp] theorem completeRead_bus (nack : Bool) (s : State) : (completeRead nack s).bus = s.bus.after s.params (readPrim nack (s.bus.supply s.params)) := by cases nack <;> rfl
@[simp] theorem completeRead_lineA (nack : Bool) (s : State) : (completeRead nack s).lineA = s.lineA := by cases nack <;> rfl
@[simp] theorem completeRead_lineB (nack : Bool) (s : State) : (completeRead nack s).lineB = s.lineB := by cases nack <;> rfl
@[simp] theorem completeRead_draws (nack : Bool) (s : State) : (completeRead nack s).draws = s.draws := by cases nack <;> rfl
@[simp] theorem completeRead_params (nack : Bool) (s : State) : (completeRead nack s).params = s.params := by cases nack <;> rfl

@[simp] theorem nextSampleByte_rate (s : State) : (nextSampleByte s).rate = s.rate := by
  unfold nextSampleByte; split <;> rfl
@[simp] theorem nextSampleByte_range (s : State) : (nextSampleByte s).range = s.range := by
  unfold nextSampleByte; split <;> rfl
@[simp] theorem nextSampleByte_freqChz (s : State) : (nextSampleByte s).freqChz = s.freqChz := by
  unfold nextSampleByte; split <;> rfl
@[simp] theorem nextSampleByte_cacheWritten (s : State) : (nextSampleByte s).cacheWritten = s.cacheWritten := by
  unfold nextSampleByte; split <;> rfl
@[simp] theorem nextSampleByte_present (s : State) : (nextSampleByte s).present = s.present := by
  unfold nextSampleByte; split <;> rfl
@[simp] theorem nextSampleByte_tapStatus (s : State) : (nextSampleByte s).tapStatus = s.tapStatus := by
  unfold nextSampleByte; split <;> rfl
@[simp] theorem nextSampleByte_tapWritten (s : State) : (nextSampleByte s).tapWritten = s.tapWritten := by
  unfold nextSampleByte; split <;> rfl
@[simp] theorem nextSampleByte_orientStatus (s : State) : (nextSampleByte s).orientStatus = s.orientStatus := by
  unfold nextSampleByte; split <;> rfl
@[simp] theorem nextSampleByte_orientWritten (s : State) : (nextSampleByte s).orientWritten = s.orientWritten := by
  unfold nextSampleByte; split <;> rfl
@[simp] theorem nextSampleByte_fsm (s : State) : (nextSampleByte s).fsm = s.fsm := by
  unfold nextSampleByte; split <;> rfl
@[simp] theorem nextSampleByte_busy (s : State) : (nextSampleByte s).busy = s.busy := by
  unfold nextSampleByte; split <;> rfl
@[simp] theorem nextSampleByte_upc (s : State) : (nextSampleByte s).upc = s.upc := by
  unfold nextSampleByte; split <;> rfl
@[simp] theorem nextSampleByte_sess (s : State) : (nextSampleByte s).sess = s.sess := by
  unfold nextSampleByte; split <;> rfl
@[simp] theorem nextSampleByte_savedAct (s : State) : (nextSampleByte s).savedAct = s.savedAct := by
  unfold nextSampleByte; split <;> rfl
@[simp] theorem nextSampleByte_fifoF (s : State) : (nextSampleByte s).fifoF = s.fifoF := by
  unfold nextSampleByte; split <;> rfl
@[simp] theorem nextSampleByte_fifoN (s : State) : (nextSampleByte s).fifoN = s.fifoN := by
  unfold nextSampleByte; split <;> rfl
@[simp] theorem nextSampleByte_sampI (s : State) : (nextSampleByte s).sampI = (if s.byteK = 5 then s.sampI + 1 else s.sampI) := by
  unfold nextSampleByte; split <;> rfl
@[simp] theorem nextSampleByte_byteK (s : State) : (nextSampleByte s).byteK = (if s.byteK = 5 then 0 else s.byteK + 1) := by
  unfold nextSampleByte; split <;> rfl
@[simp] theorem nextSampleByte_irqArmed (s : State) : (nextSampleByte s).irqArmed = s.irqArmed := by
  unfold nextSampleByte; split <;> rfl
@[simp] theorem nextSampleByte_curCmd (s : State) : (nextSampleByte s).curCmd = s.curCmd := by
  unfold nextSampleByte; split <;> rfl
@[simp] theorem nextSampleByte_readByte (s : State) : (nextSampleByte s).readByte = s.readByte := by
  unfold nextSampleByte; split <;> rfl
@[simp] theorem nextSampleByte_trace (s : State) : (nextSampleByte s).trace = s.trace := by
  unfold nextSampleByte; split <;> rfl
@[simp] theorem nextSampleByte_mem (s : State) : (nextSampleByte s).mem = s.mem := by
  unfold nextSampleByte; split <;> rfl
@[simp] theorem nextSampleByte_cmdIn (s : State) : (nextSampleByte s).cmdIn = s.cmdIn := by
  unfold nextSampleByte; split <;> rfl
@[simp] theorem nextSampleByte_primIn (s : State) : (nextSampleByte s).primIn = s.primIn := by
  unfold nextSampleByte; split <;> rfl
@[simp] theorem nextSampleByte_resetPin (s : State) : (nextSampleByte s).resetPin = s.resetPin := by
  unfold nextSampleByte; split <;> rfl
@[simp] theorem nextSampleByte_bus (s : State) : (nextSampleByte s).bus = s.bus := by
  unfold nextSampleByte; split <;> rfl
@[simp] theorem nextSampleByte_lineA (s : State) : (nextSampleByte s).lineA = s.lineA := by
  unfold nextSampleByte; split <;> rfl
@[simp] theorem nextSampleByte_lineB (s : State) : (nextSampleByte s).lineB = s.lineB := by
  unfold nextSampleByte; split <;> rfl
@[simp] theorem nextSampleByte_draws (s : State) : (nextSampleByte s).draws = s.draws := by
  unfold nextSampleByte; split <;> rfl
@[simp] theorem nextSampleByte_params (s : State) : (nextSampleByte s).params = s.params := by
  unfold nextSampleByte; split <;> rfl

@[simp] theorem apply_setSess (x : Sess) (s : State) :
    (Action.setSess x).apply s = { s with sess := x } := rfl
@[simp] theorem apply_setFsm (x : Fsm) (s : State) :
    (Action.setFsm x).apply s = { s with fsm := x } := rfl
@[simp] theorem apply_cacheConfig (a b : Byte) (s : State) :
    (Action.cacheConfig a b).apply s = { s with rate := (effRate a).setWidth 8, range := b, freqChz := freqOf (effRate a), cacheWritten := true } := rfl
@[simp] theorem apply_latchPresent (s : State) :
    (Action.latchPresent).apply s = { s with present := presentAfter s.params s.readByte } := rfl
@[simp] theorem apply_latchTap (s : State) :
    (Action.latchTap).apply s = { s with tapStatus := s.readByte, tapWritten := true } := rfl
@[simp] theorem apply_latchOrient (s : State) :
    (Action.latchOrient).apply s = { s with orientStatus := s.readByte, orientWritten := true } := rfl
@[simp] theorem apply_saveAct (s : State) :
    (Action.saveAct).apply s = { s with savedAct := s.readByte } := rfl
@[simp] theorem apply_latchFifoLen (s : State) :
    (Action.latchFifoLen).apply s = { s with fifoF := fifoCount s.readByte } := rfl
@[simp] theorem apply_latchFifoStatus (n : Byte) (s : State) :
    (Action.latchFifoStatus n).apply s = { s with fifoF := fifoCount s.readByte, fifoN := minCount (fifoCount s.readByte) n, sampI := 0, byteK := 0 } := rfl
@[simp] theorem apply_arm (s : State) :
    (Action.arm).apply s = armIrq s := rfl
@[simp] theorem apply_reply (v : RespValue) (s : State) :
    (Action.reply v).apply s = { respond 0 (v.value s) s with draws := s.draws + v.draws s } := rfl

end Sys2Proof.Machine
end

