-- ==== Sys2Proof/Laws/Bus.lean ====
section
/-! SUPPORT. The bus: what a completed primitive leaves of it, and when it completes the next one. -/

namespace Sys2Proof.Machine

@[simp] theorem after_completes (p : Params) (q : Prim) (b : Bus) :
    (b.after p q).completes = b.completes.map (· - 1) := rfl

@[simp] theorem after_held (p : Params) (q : Prim) (b : Bus) : (b.after p q).held = q.handle b.held := rfl

@[simp] theorem after_reads (p : Params) (q : Prim) (b : Bus) :
    (b.after p q).reads = if q.isRead then b.reads + 1 else b.reads := rfl

@[simp] theorem after_source (p : Params) (q : Prim) (b : Bus) : (b.after p q).source = b.source.after p q := rfl

/-- A bus that completes everything completes the next primitive. -/
theorem live_of_none {b : Bus} (h : b.completes = none) : b.live = true := by simp [Bus.live, h]

theorem live_of_some {b : Bus} {k : Nat} (h : b.completes = some k) : b.live = decide (k ≠ 0) := by
  cases k <;> simp [Bus.live, h]

/-- What a read does to the bus does not depend on the byte or on how it is acknowledged. -/
theorem after_read (p : Params) (b : Bus) (v w : Byte) (n m : Bool) :
    b.after p (readPrim n v) = b.after p (readPrim m w) := by
  cases n <;> cases m <;> cases h : b.source <;> simp [Bus.after, readPrim, BusSource.after, h, Prim.isRead,
    Prim.handle, RefDevice.onPrim]

theorem busAfter_nil (p : Params) (b : Bus) : busAfter p [] b = b := rfl

theorem busAfter_cons (p : Params) (q : Prim) (l : List Prim) (b : Bus) :
    busAfter p (q :: l) b = busAfter p l (b.after p q) := rfl

theorem busAfter_append (p : Params) (l m : List Prim) (b : Bus) :
    busAfter p (l ++ m) b = busAfter p m (busAfter p l b) := List.foldl_append

/-- A bus that completes everything goes on doing so. -/
theorem busAfter_completes_none (p : Params) (l : List Prim) {b : Bus} (h : b.completes = none) :
    (busAfter p l b).completes = none := by
  induction l generalizing b with
  | nil => exact h
  | cons q l ih => exact ih (by simp [h])

end Sys2Proof.Machine
end

