-- ==== Sys2Proof/Laws/Encoding.lean ====
section
/-! SUPPORT. The fields of an encoded word, one lemma per field. -/

namespace Sys2Proof

theorem commandWord_getLsbD (op : BitVec 4) (st : Bool) (a b : Byte) (d : Addr) (i : Nat) :
    (commandWord op st a b d).getLsbD i =
      BitVec.getLsbD (w := 4 + 3 + 1 + 8 + 8 + 8 + 32)
        (op ++ 0#3 ++ (BitVec.ofBool st) ++ a ++ b ++ 0#8 ++ d) i := rfl

theorem primitiveWord_getLsbD (k : BitVec 4) (d : Byte) (i : Nat) :
    (primitiveWord k d).getLsbD i = BitVec.getLsbD (w := 4 + 8) (k ++ d) i := rfl

section

variable (op : BitVec 4) (st : Bool) (a b : Byte) (d : Addr)

@[simp] theorem fieldOp_commandWord : fieldOp (commandWord op st a b d) = op := by
  ext i hi
  simp only [fieldOp, BitVec.getElem_extractLsb', commandWord_getLsbD, BitVec.getLsbD_append]
  interval_cases i <;> simp

@[simp] theorem fieldRsvHi_commandWord : fieldRsvHi (commandWord op st a b d) = 0 := by
  ext i hi
  simp only [fieldRsvHi, BitVec.getElem_extractLsb', commandWord_getLsbD, BitVec.getLsbD_append]
  interval_cases i <;> simp

@[simp] theorem fieldRsvLo_commandWord : fieldRsvLo (commandWord op st a b d) = 0 := by
  ext i hi
  simp only [fieldRsvLo, BitVec.getElem_extractLsb', commandWord_getLsbD, BitVec.getLsbD_append]
  interval_cases i <;> simp

@[simp] theorem fieldStore_commandWord : fieldStore (commandWord op st a b d) = BitVec.ofBool st := by
  ext i hi
  simp only [fieldStore, BitVec.getElem_extractLsb', commandWord_getLsbD, BitVec.getLsbD_append]
  interval_cases i; simp

@[simp] theorem fieldA_commandWord : fieldA (commandWord op st a b d) = a := by
  ext i hi
  simp only [fieldA, BitVec.getElem_extractLsb', commandWord_getLsbD, BitVec.getLsbD_append]
  interval_cases i <;> simp

@[simp] theorem fieldB_commandWord : fieldB (commandWord op st a b d) = b := by
  ext i hi
  simp only [fieldB, BitVec.getElem_extractLsb', commandWord_getLsbD, BitVec.getLsbD_append]
  interval_cases i <;> simp

@[simp] theorem fieldDest_commandWord : fieldDest (commandWord op st a b d) = d := by
  ext i hi
  simp only [fieldDest, BitVec.getElem_extractLsb', commandWord_getLsbD, BitVec.getLsbD_append]
  simp [hi]

end

@[simp] theorem fieldKind_primitiveWord (k : BitVec 4) (d : Byte) : fieldKind (primitiveWord k d) = k := by
  ext i hi
  simp only [fieldKind, BitVec.getElem_extractLsb', primitiveWord_getLsbD, BitVec.getLsbD_append]
  interval_cases i <;> simp

@[simp] theorem fieldData_primitiveWord (k : BitVec 4) (d : Byte) : fieldData (primitiveWord k d) = d := by
  ext i hi
  simp only [fieldData, BitVec.getElem_extractLsb', primitiveWord_getLsbD, BitVec.getLsbD_append]
  interval_cases i <;> simp

/-- A command word is its seven fields, most significant first (R60). -/
theorem command_fields (w : CmdWord) :
    w = fieldOp w ++ fieldRsvHi w ++ fieldStore w ++ fieldA w ++ fieldB w ++ fieldRsvLo w ++ fieldDest w := by
  apply BitVec.eq_of_getLsbD_eq
  intro i hi
  show _ = BitVec.getLsbD (w := 4 + 3 + 1 + 8 + 8 + 8 + 32) _ i
  simp only [BitVec.getLsbD_append, fieldOp, fieldRsvHi, fieldStore, fieldA, fieldB, fieldRsvLo, fieldDest,
    BitVec.getLsbD_extractLsb']
  interval_cases i <;> simp

/-- A primitive record is its kind and its data (R67). -/
theorem primitive_fields (w : PrimWord) : w = fieldKind w ++ fieldData w := by
  apply BitVec.eq_of_getLsbD_eq
  intro i hi
  show _ = BitVec.getLsbD (w := 4 + 8) _ i
  simp only [BitVec.getLsbD_append, fieldKind, fieldData, BitVec.getLsbD_extractLsb']
  interval_cases i <;> simp

end Sys2Proof
end

