-- ==== Sys2Proof/Laws/Memory.lean ====
section
/-! SUPPORT. The laws of sample memory: a read after a write, and the canonical form. -/

namespace Sys2Proof.Machine

@[simp] theorem memRead_memWrite_same (m : Memory) (a : Nat) (v : Byte) : memRead (memWrite m a v) a = some v := by
  induction m with
  | nil => simp [memWrite, memRead]
  | cons c m ih =>
    obtain ⟨k, w⟩ := c
    by_cases h : a < k
    · simp [memWrite, memRead, h]
    · by_cases h' : a = k
      · simp [memWrite, memRead, h']
      · simp [memWrite, memRead, h, h', Ne.symm h', ih]

theorem memRead_memWrite_other (m : Memory) {a b : Nat} (v : Byte) (hab : b ≠ a) :
    memRead (memWrite m a v) b = memRead m b := by
  induction m with
  | nil => simp [memWrite, memRead, hab.symm]
  | cons c m ih =>
    obtain ⟨k, w⟩ := c
    by_cases h : a < k
    · simp [memWrite, memRead, h, hab.symm]
    · by_cases h' : a = k
      · subst h'; simp [memWrite, memRead, hab.symm]
      · simp [memWrite, memRead, h, h', ih]

theorem memSorted_mono {lo lo' : Nat} {m : Memory} (hlo : lo' ≤ lo) (h : memSorted lo m) : memSorted lo' m := by
  cases m with
  | nil => rfl
  | cons c m =>
    obtain ⟨k, w⟩ := c
    simp only [memSorted, Bool.and_eq_true, decide_eq_true_eq] at h ⊢
    exact ⟨⟨by omega, h.1.2⟩, h.2⟩

theorem memSorted_memWrite {lo a : Nat} {m : Memory} (v : Byte) (h : memSorted lo m) (hlo : lo ≤ a)
    (ha : a < 2 ^ 32) : memSorted lo (memWrite m a v) := by
  induction m generalizing lo with
  | nil => simpa [memWrite, memSorted, hlo] using ha
  | cons c m ih =>
    obtain ⟨k, w⟩ := c
    simp only [memSorted, Bool.and_eq_true, decide_eq_true_eq] at h
    by_cases h1 : a < k
    · simp only [memWrite, h1, if_true, memSorted, Bool.and_eq_true, decide_eq_true_eq]
      exact ⟨⟨hlo, ha⟩, ⟨⟨by omega, h.1.2⟩, h.2⟩⟩
    · by_cases h2 : a = k
      · subst h2
        simp only [memWrite, lt_irrefl, if_false, if_true, memSorted, Bool.and_eq_true, decide_eq_true_eq]
        exact h
      · simp only [memWrite, h1, h2, if_false, memSorted, Bool.and_eq_true, decide_eq_true_eq]
        exact ⟨h.1, ih h.2 (by omega)⟩

/-- Every store keeps the canonical form. -/
theorem memWrite_wf {m : Memory} (h : m.wf) (a : Addr) (v : Byte) : Memory.wf (memWrite m a.toNat v) :=
  memSorted_memWrite v h (Nat.zero_le _) a.isLt

theorem storeSample_wf {s : State} (h : s.mem.wf) (a : Addr) (v : Byte) : (storeSample a v s).mem.wf :=
  memWrite_wf h a v

theorem reset_mem_wf : State.reset.mem.wf := rfl

@[simp] theorem storeSample_sampleByte_same (a : Addr) (v : Byte) (s : State) :
    (storeSample a v s).sampleByte a = some v := by
  simp [State.sampleByte]

theorem storeSample_sampleByte_other {a b : Addr} (v : Byte) (s : State) (h : b ≠ a) :
    (storeSample a v s).sampleByte b = s.sampleByte b := by
  simp only [State.sampleByte, storeSample_mem]
  exact memRead_memWrite_other _ _ fun e => h (BitVec.eq_of_toNat_eq e)

end Sys2Proof.Machine
end

