-- ==== Sys2Proof/Laws/Run.lean ====
section
/-! SUPPORT. What carrying out micro-steps can do: one lemma that packages the induction for every property that each
micro-step keeps, and the equations of the runner. -/

namespace Sys2Proof.Machine

/-- A property that a completed read, a store and the loop counters keep is kept by one sample byte. -/
theorem readSample_keeps {P : State → Prop} {store : Bool} {dest : Addr}
    (hread : ∀ nack s, P s → P (completeRead nack s))
    (hstore : store = true → ∀ a v s, P s → P (storeSample a v s))
    (hnext : ∀ s, P s → P (nextSampleByte s)) (s : State) (h : P s) : P (readSample store dest s) := by
  refine hnext _ ?_
  cases store with
  | false => exact hread _ _ h
  | true => exact hstore rfl _ _ _ (hread _ _ h)

/-- A property that each sample byte keeps is kept by the sample bytes of a burst, wherever the bus stops them. -/
theorem readSamples_keeps {P : State → Prop} {store : Bool} {dest : Addr}
    (hsample : ∀ s, P s → P (readSample store dest s)) (n : Nat) (s : State) (h : P s) :
    P (readSamples store dest n s).1 := by
  induction n generalizing s with
  | zero => exact h
  | succ n ih =>
    unfold readSamples
    split
    · exact ih _ (hsample _ h)
    · exact h

/-- A property that every micro-step of a list keeps is kept by running the list, wherever the bus stops it. -/
theorem run_keeps (P : State → Prop) (l : List Micro)
    (hprim : ∀ q s, P s → P (completePrim q s))
    (hread : ∀ nack s, P s → P (completeRead nack s))
    (hsample : ∀ store dest, (Micro.burst store dest ∈ l ∨ ∃ n, Micro.sampleReads n store dest ∈ l) →
      ∀ s, P s → P (readSample store dest s))
    (hact : ∀ e, Micro.act e ∈ l → ∀ s, P s → P (e.apply s)) (s : State) (h : P s) : P (run l s) := by
  induction l generalizing s with
  | nil => exact h
  | cons m l ih =>
    have ih' := ih
      (fun st d hm => hsample st d (hm.imp (List.mem_cons_of_mem _) fun ⟨n, hn⟩ => ⟨n, List.mem_cons_of_mem _ hn⟩))
      (fun e he => hact e (List.mem_cons_of_mem _ he))
    cases m with
    | act e => exact ih' _ (hact e List.mem_cons_self _ h)
    | issue q =>
      unfold run
      split
      · exact ih' _ (hprim _ _ h)
      · exact h
    | writeSaved =>
      unfold run
      split
      · exact ih' _ (hprim _ _ h)
      · exact h
    | read sel =>
      unfold run
      split
      · exact ih' _ (hread _ _ h)
      · exact h
    | burst store dest =>
      have hr := readSamples_keeps (hsample store dest (.inl List.mem_cons_self)) (sampleBytes s.fifoN) s h
      unfold run
      split
      · exact ih' _ hr
      · exact hr
    | sampleReads n store dest =>
      have hr := readSamples_keeps (hsample store dest (.inr ⟨n, List.mem_cons_self⟩)) n s h
      unfold run
      split
      · exact ih' _ hr
      · exact hr

/-- A burst is its sample bytes, counted when it begins. -/
theorem run_burst (store : Bool) (dest : Addr) (l : List Micro) (s : State) :
    run (.burst store dest :: l) s = run (.sampleReads (sampleBytes s.fifoN) store dest :: l) s := rfl

/-- No sample bytes left: the rest goes on. -/
theorem run_sampleReads_zero (store : Bool) (dest : Addr) (l : List Micro) (s : State) :
    run (.sampleReads 0 store dest :: l) s = run l s := rfl

/-- One sample byte of those left. -/
theorem run_sampleReads_succ (n : Nat) (store : Bool) (dest : Addr) (l : List Micro) (s : State) :
    run (.sampleReads (n + 1) store dest :: l) s =
      if s.bus.live then run (.sampleReads n store dest :: l) (readSample store dest s) else s := by
  by_cases h : s.bus.live = true <;> simp [run, readSamples, h]

end Sys2Proof.Machine
end

