-- ==== Sys2Proof/Laws/Exec.lean ====
section
/-! SUPPORT. What the shared operations of a step can do, said once: issuing a primitive, a framed operation, a
command, an instruction, and a step. -/

namespace Sys2Proof.Machine

/-- A primitive issued completes or leaves the state as it is. -/
theorem issuePrim_cases (q : Prim) (s : State) :
    s.bus.live = true ∧ issuePrim q s = completePrim q s ∨ s.bus.live = false ∧ issuePrim q s = s := by
  cases h : s.bus.live <;> simp [issuePrim, h]

/-- A framed operation that answers next was allowed and ran its micro-steps. -/
theorem framed_next {f : Framed} {s t : State} (h : framed f s = .next t) :
    f.allowed s.sess = true ∧ t = run (f.micros s.params) s := by
  unfold framed at h
  split at h
  · injection h with h; exact ⟨by assumption, h.symm⟩
  · cases h

/-- A command that answers next was not accepted by a busy block, or ran from its acceptance. -/
theorem command_next {i : Instr} {l : List Line} {s t : State} (h : command i l s = .next t) :
    s.busy = true ∧ t = s ∨
      s.busy = false ∧ (opensSession l = true → s.sess = .closed) ∧ t = run (expand s.params l) (accept i s) := by
  unfold command at h
  split at h
  · injection h with h; exact .inl ⟨by assumption, h.symm⟩
  · split at h
    · cases h
    · injection h with h
      refine .inr ⟨by simp_all, fun ho => ?_, h.symm⟩
      simp_all

/-- An instruction that answers next: a primitive issued, or a command. -/
theorem exec_next {i : Instr} {s t : State} (h : exec i s = .next t) :
    (i.isCommand = false ∧ ∃ q, t = issuePrim q s) ∨
      (i.isCommand = true ∧ command i (linesOf s.params i) s = .next t) := by
  cases i <;> first
    | exact .inr ⟨rfl, h⟩
    | (injection h with h; exact .inl ⟨rfl, _, h.symm⟩)

/-- Every action in a command's micro-steps is an action of its pseudocode or a change of the session state. -/
theorem act_mem_expand {p : Params} {l : List Line} {e : Action} (h : Micro.act e ∈ expand p l) :
    Line.act e ∈ l ∨ ∃ x, e = .setSess x := by
  simp only [expand, List.mem_flatMap] at h
  obtain ⟨x, hx, h⟩ := h
  cases x with
  | op f => cases f <;> simp [Line.micros, Framed.micros] at h <;> exact .inr ⟨_, h⟩
  | act e' => simp [Line.micros] at h; subst h; exact .inl hx
  | samples st d => simp [Line.micros] at h

/-- The bursts in a command's micro-steps are the sample loops of its pseudocode. -/
theorem burst_mem_expand {p : Params} {l : List Line} {store : Bool} {dest : Addr}
    (h : Micro.burst store dest ∈ expand p l) : Line.samples store dest ∈ l := by
  simp only [expand, List.mem_flatMap] at h
  obtain ⟨x, hx, h⟩ := h
  cases x with
  | op f => cases f <;> simp [Line.micros, Framed.micros] at h
  | act e' => simp [Line.micros] at h
  | samples st d => simp [Line.micros] at h; obtain ⟨rfl, rfl⟩ := h; exact hx

/-- A command begins no burst half-way. -/
theorem sampleReads_not_mem_expand {p : Params} {l : List Line} {n : Nat} {store : Bool} {dest : Addr} :
    Micro.sampleReads n store dest ∉ expand p l := by
  intro h
  simp only [expand, List.mem_flatMap] at h
  obtain ⟨x, hx, h⟩ := h
  cases x with
  | op f => cases f <;> simp [Line.micros, Framed.micros] at h
  | act e' => simp [Line.micros] at h
  | samples st d => simp [Line.micros] at h

/-- A property that every part of an instruction keeps is kept by the instruction, wherever the bus stops it. -/
theorem exec_keeps (P : State → Prop) {i : Instr} {s t : State} (h : exec i s = .next t) (h0 : P s)
    (haccept : P s → P (accept i s))
    (hprim : ∀ q s', P s' → P (completePrim q s'))
    (hread : ∀ nack s', P s' → P (completeRead nack s'))
    (hsample : ∀ store dest, Line.samples store dest ∈ linesOf s.params i →
      ∀ s', P s' → P (readSample store dest s'))
    (hsess : ∀ x s', P s' → P { s' with sess := x })
    (hact : ∀ e, Line.act e ∈ linesOf s.params i → ∀ s', P s' → P (e.apply s')) : P t := by
  rcases exec_next h with ⟨_, q, rfl⟩ | ⟨_, h⟩
  · rcases issuePrim_cases q s with ⟨_, e⟩ | ⟨_, e⟩ <;> rw [e]
    · exact hprim _ _ h0
    · exact h0
  · rcases command_next h with ⟨_, rfl⟩ | ⟨_, _, rfl⟩
    · exact h0
    · refine run_keeps P _ hprim hread (fun store dest hm => ?_) (fun e he => ?_) _ (haccept h0)
      · rcases hm with hm | ⟨n, hm⟩
        · exact hsample store dest (burst_mem_expand hm)
        · exact absurd hm sampleReads_not_mem_expand
      · rcases act_mem_expand he with he | ⟨x, rfl⟩
        · exact hact e he
        · exact hsess x

/-- What a step that answers next has done. -/
theorem step_next {s t : State} (h : step s = .next t) :
    (s.resetPin = true ∧ t = applyReset s) ∨
    (s.resetPin = false ∧ s.busy = true ∧ t = continueCommand s) ∨
    (s.resetPin = false ∧ s.busy = false ∧ t = s) ∨
    (s.resetPin = false ∧ s.busy = false ∧ s.primIn = none ∧
      ∃ w rest, s.cmdIn = w :: rest ∧
        ((∃ e, decodeCommand w = .error e) ∧ t = raiseIllegalCommand w { s with cmdIn := rest } ∨
          ∃ i, decodeCommand w = .ok i ∧ exec i { s with cmdIn := rest } = .next t)) ∨
    (s.resetPin = false ∧ s.busy = false ∧
      ∃ w i, s.primIn = some w ∧ decodePrimitive w = .ok i ∧ exec i { s with primIn := none } = .next t) := by
  unfold step fetch at h
  cases hr : s.resetPin with
  | true => simp [hr] at h; exact .inl ⟨rfl, h.symm⟩
  | false =>
    cases hb : s.busy with
    | true => simp [hr, hb] at h; exact .inr (.inl ⟨rfl, rfl, h.symm⟩)
    | false =>
      cases hp : s.primIn with
      | none =>
        simp only [hr, hb, hp, fetchCommand] at h
        cases hc : s.cmdIn with
        | nil => simp [hc] at h; exact .inr (.inr (.inl ⟨rfl, rfl, h.symm⟩))
        | cons w rest =>
          refine .inr (.inr (.inr (.inl ⟨rfl, rfl, rfl, w, rest, rfl, ?_⟩)))
          cases hd : decodeCommand w with
          | error e => simp [hc, decode, hd] at h; exact .inl ⟨⟨e, rfl⟩, h.symm⟩
          | ok i => simp [hc, decode, hd] at h; exact .inr ⟨i, rfl, h⟩
      | some w =>
        cases hd : decodePrimitive w with
        | error e => simp [hr, hb, hp, decode, hd] at h
        | ok i =>
          cases hl : s.bus.live with
          | false => simp [hr, hb, hp, decode, hd, hl] at h; exact .inr (.inr (.inl ⟨rfl, rfl, h.symm⟩))
          | true =>
            simp [hr, hb, hp, decode, hd, hl] at h
            exact .inr (.inr (.inr (.inr ⟨rfl, rfl, w, i, rfl, hd, h⟩)))

end Sys2Proof.Machine
end

