-- ==== Sys2Proof/Laws/PerInstr.lean ====
section
/-! SUPPORT. A statement about each instruction as syntax: its encoding carries its own code on its own channel. -/

namespace Sys2Proof.Laws

/-- The code of an instruction: `op` for a command (R61), `kind` for a primitive (R67). -/
def codeOf : Instr → BitVec 4
  | .verifyId => 0x1
  | .startup _ _ => 0x2
  | .standby => 0x3
  | .enableInt _ _ => 0x4
  | .readFifoLen => 0x5
  | .readFifo _ _ _ => 0x6
  | .readTap => 0x7
  | .readOrient => 0x8
  | .readIntSrc => 0x9
  | .getRate => 0xA
  | .getFreq => 0xB
  | .busOpen => 1
  | .busStart => 2
  | .busRestart => 3
  | .busStop => 4
  | .busClose => 5
  | .wr _ => 6
  | .rda _ => 7
  | .rdn _ => 8

/-- The instruction is encoded on its own channel with its own code, reserved fields 0. -/
def OwnCode.Statement (i : Instr) : Prop :=
  match encode i with
  | .command w => i.isCommand = true ∧ fieldOp w = codeOf i ∧ fieldRsvHi w = 0 ∧ fieldRsvLo w = 0
  | .primitive w => i.isCommand = false ∧ fieldKind w = codeOf i

theorem OwnCode.verifyId : OwnCode.Statement .verifyId := by simp [Statement, encode, Instr.isCommand, codeOf]
theorem OwnCode.startup (a b : Byte) : OwnCode.Statement (.startup a b) := by
  simp [Statement, encode, Instr.isCommand, codeOf]
theorem OwnCode.standby : OwnCode.Statement .standby := by simp [Statement, encode, Instr.isCommand, codeOf]
theorem OwnCode.enableInt (a b : Byte) : OwnCode.Statement (.enableInt a b) := by
  simp [Statement, encode, Instr.isCommand, codeOf]
theorem OwnCode.readFifoLen : OwnCode.Statement .readFifoLen := by simp [Statement, encode, Instr.isCommand, codeOf]
theorem OwnCode.readFifo (store : Bool) (a : Byte) (dest : Addr) : OwnCode.Statement (.readFifo store a dest) := by
  simp [Statement, encode, Instr.isCommand, codeOf]
theorem OwnCode.readTap : OwnCode.Statement .readTap := by simp [Statement, encode, Instr.isCommand, codeOf]
theorem OwnCode.readOrient : OwnCode.Statement .readOrient := by simp [Statement, encode, Instr.isCommand, codeOf]
theorem OwnCode.readIntSrc : OwnCode.Statement .readIntSrc := by simp [Statement, encode, Instr.isCommand, codeOf]
theorem OwnCode.getRate : OwnCode.Statement .getRate := by simp [Statement, encode, Instr.isCommand, codeOf]
theorem OwnCode.getFreq : OwnCode.Statement .getFreq := by simp [Statement, encode, Instr.isCommand, codeOf]
theorem OwnCode.busOpen : OwnCode.Statement .busOpen := by simp [Statement, encode, Instr.isCommand, codeOf]
theorem OwnCode.busStart : OwnCode.Statement .busStart := by simp [Statement, encode, Instr.isCommand, codeOf]
theorem OwnCode.busRestart : OwnCode.Statement .busRestart := by simp [Statement, encode, Instr.isCommand, codeOf]
theorem OwnCode.busStop : OwnCode.Statement .busStop := by simp [Statement, encode, Instr.isCommand, codeOf]
theorem OwnCode.busClose : OwnCode.Statement .busClose := by simp [Statement, encode, Instr.isCommand, codeOf]
theorem OwnCode.wr (data : Byte) : OwnCode.Statement (.wr data) := by simp [Statement, encode, Instr.isCommand, codeOf]
theorem OwnCode.rda (data : Byte) : OwnCode.Statement (.rda data) := by
  simp [Statement, encode, Instr.isCommand, codeOf]
theorem OwnCode.rdn (data : Byte) : OwnCode.Statement (.rdn data) := by
  simp [Statement, encode, Instr.isCommand, codeOf]

end Sys2Proof.Laws
end

