-- ==== Sys2Proof/Tests/Slice0.lean ====
section
/-! SUPPORT. Named tests by evaluation, expected values from the spec's vectors (95_test_vectors.md) or worked out by
hand from its rules, and for each statement with hypotheses a state and operands that meet them together. -/

namespace Sys2Proof.Tests

open Sys2Proof.Machine

/-! ### Ill-formed parameter sets, one for each check of R5 -/

theorem test_P0_well_formed : P0.wellFormed = true := by decide
theorem test_address_128_refused :
    Params.addressesBelow128 { P0 with regStatus := 0x80 } = false ∧
      Params.wellFormed { P0 with regStatus := 0x80 } = false := by decide
theorem test_burst_not_consecutive_refused :
    Params.burstsConsecutive { P0 with regHpCutoff := 0x10 } = false ∧
      Params.wellFormed { P0 with regHpCutoff := 0x10 } = false := by decide
theorem test_two_active_bits_refused :
    Params.activeMaskOneBit { P0 with activeMask := 0x03 } = false ∧
      Params.wellFormed { P0 with activeMask := 0x03 } = false := by decide
theorem test_no_active_bit_refused : Params.activeMaskOneBit { P0 with activeMask := 0x00 } = false := by decide
theorem test_active_bit_in_rate_field_refused :
    Params.activeMaskOutsideRate { P0 with activeMask := 0x20 } = false ∧
      Params.wellFormed { P0 with activeMask := 0x20 } = false := by decide
theorem test_equal_rates_refused :
    Params.ratesDistinct { P0 with drEnc := #v[0, 1, 2, 3, 4, 5, 6, 6] } = false ∧
      Params.wellFormed { P0 with drEnc := #v[0, 1, 2, 3, 4, 5, 6, 6] } = false := by decide
theorem test_other_fifo_depth_refused :
    Params.fifoDepthIs32 { P0 with fifoDepth := 31 } = false ∧
      Params.wellFormed { P0 with fifoDepth := 31 } = false := by decide

/-! ### Decoding: the words of V1, V3 and V4, one for each constructor, and the illegal words of V2 and V4 -/

theorem test_decode_VERIFY_ID : decode (.command 0x1000000000000000) = .ok .verifyId := by decide
theorem test_decode_STARTUP :
    decode (.command 0x2003010000000000) = .ok (.startup 3 1) ∧
      decode (.command 0x20C8070000000000) = .ok (.startup 200 7) ∧
      decode (.command 0x20FFFF0000000000) = .ok (.startup 255 255) := by decide
theorem test_decode_STANDBY : decode (.command 0x3000000000000000) = .ok .standby := by decide
theorem test_decode_ENABLE_INT : decode (.command 0x4009080000000000) = .ok (.enableInt 0x09 0x08) := by decide
theorem test_decode_READ_FIFO_LEN : decode (.command 0x5000000000000000) = .ok .readFifoLen := by decide
theorem test_decode_READ_FIFO :
    decode (.command 0x6103000000001000) = .ok (.readFifo true 3 0x1000) ∧
      decode (.command 0x61010000FFFFFFFE) = .ok (.readFifo true 1 0xFFFFFFFE) ∧
      decode (.command 0x6020000000000000) = .ok (.readFifo false 32 0) ∧
      decode (.command 0x6003000012345678) = .ok (.readFifo false 3 0x12345678) := by decide
theorem test_decode_READ_TAP : decode (.command 0x7000000000000000) = .ok .readTap := by decide
theorem test_decode_READ_ORIENT : decode (.command 0x8000000000000000) = .ok .readOrient := by decide
theorem test_decode_READ_INT_SRC : decode (.command 0x9000000000000000) = .ok .readIntSrc := by decide
theorem test_decode_GET_RATE : decode (.command 0xA000000000000000) = .ok .getRate := by decide
theorem test_decode_GET_FREQ : decode (.command 0xB000000000000000) = .ok .getFreq := by decide
theorem test_decode_primitives :
    [0x100, 0x200, 0x300, 0x400, 0x500, 0x638, 0x705, 0x81A].map (fun w => (decode (.primitive w)).toOption) =
      [some .busOpen, some .busStart, some .busRestart, some .busStop, some .busClose, some (.wr 0x38),
        some (.rda 0x05), some (.rdn 0x1A)] := by decide
theorem test_illegal_words :
    [0x0000000000000000, 0xFFFFFFFFFFFFFFFF, 0xC000000000000000, 0xD000000000000000, 0xE000000000000000,
      0x1000000000000001, 0x1001000000000000, 0x2203010000000000, 0x2103010000000000, 0x2003010100000000,
      0x2003010000000004, 0x3000010000000000, 0x6003AB0000000000, 0x6803000000000000, 0xA100000000000000].all
      (fun w => (decode (.command w)).toOption == none) = true := by decide
theorem test_illegal_records :
    [0x000, 0x0FF, 0x900, 0xFFF, 0x101, 0x5FF].all (fun w => (decode (.primitive w)).toOption == none) = true := by
  decide
/-- The table numbers an instruction's bits from the first word's bit 0; a primitive has 12 bits in two bytes. -/
theorem test_table_words :
    decodeTableWord 64 0x4009080000000000 = some (.enableInt 9 8) ∧ decodeTableWord 16 0x81A = some (.rdn 0x1A) ∧
      decodeTableWord 64 0 = none ∧ decodeTableWord 16 0x1638 = none := by decide

/-! ### Single steps -/

/-- The reset state with a word on offer and a bus that returns the bytes `bs` (then free bytes). -/
def offering (w : CmdWord) (bs : List Byte) : State :=
  { State.reset with
    cmdIn := [w]
    bus := { source := .bytes bs, completes := none, held := false, reads := 0 } }

/-- The same with a bus that completes only `k` primitives. -/
def stopping (w : CmdWord) (bs : List Byte) (k : Nat) : State :=
  { State.reset with
    cmdIn := [w]
    bus := { source := .bytes bs, completes := some k, held := false, reads := 0 } }

/-- A property of the state a step answers with. -/
def after (s : State) (P : State → Bool) : Bool :=
  match step s with
  | .next t => P t
  | .fault _ => false
  | .refused _ => false

/-- V11: the nine primitives and the response 1. -/
theorem test_VERIFY_ID_present :
    after (offering 0x1000000000000000 [0x1A]) (fun t => t.present && t.trace ==
      [.prim .busOpen, .prim .busStart, .prim (.wr 0x38), .prim (.wr 0x0D), .prim .busRestart, .prim (.wr 0x39),
        .prim (.rdn 0x1A), .prim .busStop, .prim .busClose, .resp 0 1]) = true := by decide
/-- V13: one bit off is a mismatch, and a mismatch is no error. -/
theorem test_VERIFY_ID_one_bit_off :
    after (offering 0x1000000000000000 [0x9A]) (fun t => !t.present && t.trace.getLast? == some (.resp 0 0)) = true := by
  decide
/-- V20: 55 primitives, the last data byte 0x19, the cache and `fsm`. -/
theorem test_STARTUP_100Hz :
    after (offering 0x2003010000000000 []) (fun t => t.trace.length == 56 && t.trace[8]? == some (.prim (.wr 0x01)) &&
      t.trace[52]? == some (.prim (.wr 0x19)) && t.rate == 3 && t.range == 1 && t.freqChz == 10000 &&
      t.fsm == .active) = true := by decide
/-- V21 and V22, fallbacks: rate 200 writes 0x19 and caches 3; range 7 writes 1 and caches 7. -/
theorem test_STARTUP_fallbacks :
    after (offering 0x20C8070000000000 []) (fun t => t.trace[8]? == some (.prim (.wr 0x01)) &&
      t.trace[52]? == some (.prim (.wr 0x19)) && t.rate == 3 && t.range == 7 && t.freqChz == 10000) = true := by decide
/-- V24, the row of primitive 39: the cache is new, `fsm` still CONFIGURING, no response. -/
theorem test_STARTUP_stuck_at_39 :
    after (stopping 0x2005020000000000 [] 38) (fun t => t.upc == 38 && t.fsm == .configuring && t.rate == 5 &&
      t.range == 2 && t.freqChz == 1250 && t.sess == .wburst && t.busy && t.trace.length == 38) = true := by decide
/-- V25. -/
theorem test_STANDBY :
    after (offering 0x3000000000000000 []) (fun t => t.fsm == .standby && t.trace ==
      [.prim .busOpen, .prim .busStart, .prim (.wr 0x38), .prim (.wr 0x2A), .prim (.wr 0x18), .prim .busStop,
        .prim .busClose, .resp 0 0]) = true := by decide
/-- V28: with `DR_ENC[k]` = 7 - k and `ACTIVE_MASK` = 0x02 the STANDBY byte is 0x20. -/
theorem test_STANDBY_other_parameters :
    after { offering 0x3000000000000000 [] with
      params := { P0 with drEnc := #v[7, 6, 5, 4, 3, 2, 1, 0], activeMask := 0x02 } }
      (fun t => t.trace[4]? == some (.prim (.wr 0x20))) = true := by decide
/-- V30: the saved byte is written back, the snapshots refreshed, ARM before the response, 74 primitives. -/
theorem test_ENABLE_INT :
    after (offering 0x4009080000000000
        [0x19, 0x02, 0x11, 0x22, 0x33, 0x44, 0x55, 0x66, 0x11, 0x22, 0x33, 0x44, 0x55, 0x66, 0xC4, 0x82])
      (fun t => t.trace.length == 76 && t.trace[32]? == some (.prim (.wr 0x19)) &&
        t.trace[53]? == some (.prim (.rdn 0x66)) && t.trace[74]? == some .arm && t.trace[75]? == some (.resp 0 0) &&
        t.tapStatus == 0xC4 && t.orientStatus == 0x82 && t.irqArmed) = true := by decide
/-- V34: stuck at the `STOP` of the orientation read, the snapshots are new and nothing is armed. -/
theorem test_ENABLE_INT_stuck_in_the_last_read :
    after (stopping 0x4000000000000000 [0x18, 0x00, 0xC4, 0x82] 60)
      (fun t => t.tapStatus == 0xC4 && t.orientStatus == 0x82 && !t.irqArmed && t.busy && t.upc == 60) = true := by decide
/-- V40. -/
theorem test_READ_FIFO_LEN :
    after (offering 0x5000000000000000 [0x85]) (fun t => t.trace.drop 6 ==
      [.prim (.rdn 0x85), .prim .busStop, .prim .busClose, .resp 0 5]) = true := by decide
/-- V44, with the stores in receive order. -/
theorem test_READ_FIFO_one_sample :
    after (offering 0x6101000000001000 [0x01, 0x12, 0x34, 0x56, 0x78, 0x9A, 0xBC]) (fun t => t.trace.drop 6 ==
        [.prim (.rda 0x01), .prim (.rda 0x12), .mw 0x1001 0x12, .prim (.rda 0x34), .mw 0x1000 0x34,
          .prim (.rda 0x56), .mw 0x1003 0x56, .prim (.rda 0x78), .mw 0x1002 0x78, .prim (.rda 0x9A), .mw 0x1005 0x9A,
          .prim (.rdn 0xBC), .mw 0x1004 0xBC, .prim .busStop, .prim .busClose, .resp 0 1] &&
        t.sampleByte 0x1005 == some 0x9A && t.sampleByte 0x1006 == none) = true := by decide
/-- V48: the buffer wraps past the last address. -/
theorem test_READ_FIFO_wraps :
    after (offering 0x61010000FFFFFFFE [0x03, 0x01, 0x02, 0x03, 0x04, 0x05, 0x06]) (fun t => t.mem ==
      [(0x0, 0x04), (0x1, 0x03), (0x2, 0x06), (0x3, 0x05), (0xFFFFFFFE, 0x02), (0xFFFFFFFF, 0x01)]) = true := by decide
/-- V60. -/
theorem test_READ_TAP :
    after (offering 0x7000000000000000 [0xC4]) (fun t => t.tapStatus == 0xC4 && !t.orientWritten &&
      t.trace[3]? == some (.prim (.wr 0x22)) && t.trace.getLast? == some (.resp 0 196)) = true := by decide
/-- V61. -/
theorem test_READ_ORIENT :
    after (offering 0x8000000000000000 [0x82]) (fun t => t.orientStatus == 0x82 && !t.tapWritten &&
      t.trace[3]? == some (.prim (.wr 0x10)) && t.trace.getLast? == some (.resp 0 130)) = true := by decide
/-- V62 and V64: nothing is cached, and the byte is zero-extended. -/
theorem test_READ_INT_SRC :
    after (offering 0x9000000000000000 [0xFF]) (fun t => !t.orientWritten && !t.tapWritten &&
      t.trace[3]? == some (.prim (.wr 0x0C)) && t.trace.getLast? == some (.resp 0 255)) = true := by decide
/-- V35 for rate code 5. -/
theorem test_GET_RATE :
    after { offering 0xA000000000000000 [] with rate := 5, freqChz := 1250, cacheWritten := true }
      (fun t => t.trace == [.resp 0 5]) = true := by decide
theorem test_GET_FREQ :
    after { offering 0xB000000000000000 [] with rate := 5, freqChz := 1250, cacheWritten := true }
      (fun t => t.trace == [.resp 0 1250]) = true := by decide
/-- R67, R90: each primitive record placed on the primitive channel completes as itself. -/
theorem test_primitives_complete :
    ([(0x100, .busOpen), (0x200, .busStart), (0x300, .busRestart), (0x400, .busStop), (0x500, .busClose),
      (0x638, .wr 0x38), (0x705, .rda 0x05), (0x81A, .rdn 0x1A)] : List (Nat × Prim)).all
      (fun c => after (State.reset.withFetchWord 16 c.1) fun t => t.trace == [.prim c.2] && t.primIn == none) = true := by
  decide
/-- R92: OPEN acquires the handle, CLOSE releases it. -/
theorem test_handle :
    after (State.reset.withFetchWord 16 0x100) (fun t => t.bus.held) = true ∧
      after { State.reset.withFetchWord 16 0x500 with bus := { State.reset.bus with held := true } }
        (fun t => !t.bus.held) = true := by decide
/-- V2: an illegal word is answered with `RESP(1,0)`. -/
theorem test_illegal_word_answered :
    after (offering 0x2103010000000000 []) (fun t => t.trace == [.resp 1 0] && !t.busy && t.sess == .closed) = true := by
  decide
/-- V70. -/
theorem test_reset_outputs :
    (State.reset.statusOutputs =
      { busy := false, fsm := 0, present := false, irqArmed := false, rate := none, range := none, freqChz := none,
        tapStatus := none, orientStatus := none }) := by decide
/-- V45: the largest, the smallest and the value -1 as the host reads them. -/
theorem test_accel14 :
    accel14 (axis16 0xFC 0x7F) = 8191 ∧ accel14 (axis16 0x00 0x80) = -8192 ∧ accel14 (axis16 0xFC 0xFF) = -1 := by decide
/-- V7: the acknowledge choice for the status byte of a FIFO burst. -/
theorem test_status_selector :
    [0x00, 0x05, 0xC0, 0x40, 0x41].map (Sel.nacks (.fifoStatus 1)) = [true, false, true, true, false] := by decide
/-- Section 2 of the vectors: the reference device counts its FIFO, streams a sample, and clears a latch on reading. -/
theorem test_reference_device :
    let d := ((RefDevice.fresh0 P0).inject P0 ⟨1, 2, 3, 4, 5, 6⟩).latch 0x22 0x44
    let rd (r : Byte) := (((((d.onPrim P0 .busStart).onPrim P0 (.wr 0x38)).onPrim P0 (.wr r)).onPrim P0
      .busRestart).onPrim P0 (.wr 0x39))
    (rd 0).supply? P0 = some 1 ∧ ((rd 0).onPrim P0 (.rda 1)).supply? P0 = some 1 ∧ (rd 0x22).supply? P0 = some 0x44 ∧
      ((rd 0x22).onPrim P0 (.rdn 0x44)).regs.getD 0x22 9 = 0 ∧ (rd 0x0D).supply? P0 = some 0x1A := by decide

/-! ### Witnesses: for each statement with hypotheses, a state and operands that meet them together -/

/-- A state in the middle of a command: STANDBY stopped at its third primitive. -/
def running : State :=
  { State.reset with
    busy := true
    upc := 2
    sess := .ready
    curCmd := 0x3000000000000000
    bus := { source := .bytes [], completes := some 0, held := true, reads := 0 } }

/-- An idle block after a STARTUP. -/
def configured : State :=
  { State.reset with rate := 5, range := 2, freqChz := 1250, cacheWritten := true, fsm := .active }

/-- An idle block whose bus completes no primitive. -/
def deadBus : State := { State.reset with bus := { State.reset.bus with completes := some 0 } }

/-- An idle block whose bus returns a FIFO status of one sample and its six bytes, and completes `k` primitives. -/
def oneSample (k : Option Nat) : State :=
  { State.reset with
    bus := { source := .bytes [0x01, 0x12, 0x34, 0x56, 0x78, 0x9A, 0xBC], completes := k, held := false, reads := 0 } }

theorem witness_DecodeInvertsEncode : (Instr.readFifo true 255 0xFFFFFFFF).wellFormed = true := rfl
theorem witness_EncodeInvertsDecode :
    decode (.command 0x61FF0000FFFFFFFF) = .ok (.readFifo true 255 0xFFFFFFFF) ∧
      decode (.primitive 0x8FF) = .ok (.rdn 0xFF) := by decide
theorem witness_DecoderAcceptsTheSelectedWords :
    commandRows.any (fun r => r.selectedBy 0x6003000012345678) = true ∧
      commandRows.any (fun r => r.selectedBy 0x6003010012345678) = false := by decide
theorem witness_StepRunsTheOfferedCommand :
    let s := offering 0x3000000000000000 []
    s.resetPin = false ∧ s.busy = false ∧ s.primIn = none ∧ s.cmdIn = [0x3000000000000000] ∧
      decode (.command 0x3000000000000000) = .ok .standby := by decide
theorem witness_StepRunsThePrimitive :
    let s := { State.reset with primIn := some 0x638 }
    let s' := { deadBus with primIn := some 0x638 }
    (s.resetPin = false ∧ s.busy = false ∧ s.primIn = some 0x638 ∧ decode (.primitive 0x638) = .ok (.wr 0x38)) ∧
      s.bus.live = true ∧ s'.resetPin = false ∧ s'.busy = false ∧ s'.primIn = some 0x638 ∧ s'.bus.live = false := by
  decide
theorem witness_StepRefusesReservedRecordsAndWaits :
    State.reset.resetPin = false ∧ State.reset.busy = false ∧ State.reset.primIn = none ∧ State.reset.cmdIn = [] ∧
      [0x000, 0x0FF, 0x900, 0xFFF, 0x101, 0x5FF].all (fun w => decide
        (fieldKind w = 0 ∨ 9 ≤ fieldKind w ∨ (fieldKind w ≤ 5 ∧ fieldData w ≠ 0))) = true ∧
      { State.reset with primIn := some 0x101 }.primIn = some 0x101 := by decide
theorem witness_IllegalWordRespondsOne :
    let s := offering 0xFFFFFFFFFFFFFFFF []
    s.resetPin = false ∧ s.busy = false ∧ s.primIn = none ∧ s.cmdIn = [0xFFFFFFFFFFFFFFFF] ∧
      commandRows.any (fun r => r.selectedBy 0xFFFFFFFFFFFFFFFF) = false := by decide
theorem witness_BusyBlockAcceptsNothing :
    running.resetPin = false ∧ running.busy = true ∧ running.bus.live = false ∧ Instr.standby.isCommand = true := by
  decide
theorem witness_ResetInputSetsEveryRegister : { running with resetPin := true }.resetPin = true := rfl
theorem witness_ResetLeavesTheOutsideAlone :
    { configured with resetPin := true }.resetPin = true ∧ { configured with resetPin := true }.busy = false := by decide
theorem witness_PlainPrimitivesComplete :
    State.reset.bus.live = true ∧ Instr.wr 0xFF = .wr 0xFF ∧ Prim.busStop ∈ [Prim.busStart, .busRestart, .busStop] := by
  decide
theorem witness_ReadPrimitivesReturnTheByte : State.reset.bus.live = true := by decide
theorem witness_PrimitiveWaitsForTheBus :
    (Instr.rdn 0).isCommand = false ∧ deadBus.bus.live = false := by decide
theorem witness_FramedOperationsFollowTheTable :
    ([.closed, .ready, .waddr, .wburst, .rburst, .rdone] : List Sess).all
      (fun x => decide (Live { State.reset with sess := x } ∧ { State.reset with sess := x }.sess = x)) = true := by
  decide
theorem witness_CommandsProduceSessionShapes :
    Instr.standby.isCommand = true ∧ Idle State.reset ∧
      (∃ t, exec .standby State.reset = .next t ∧ t.busy = false) ∧ ∃ t, exec .standby deadBus = .next t ∧ t.busy = true :=
  ⟨rfl, by decide, ⟨_, rfl, by decide⟩, ⟨_, rfl, by decide⟩⟩
theorem witness_VerifyIdComparesTheIdentity : Idle (offering 0 [0x1A]) ∧ Live (offering 0 [0x1A]) := by decide
theorem witness_StartupConfiguresAndActivates : Idle configured ∧ Live configured := by decide
theorem witness_StartupWritesTheRegistersInOrder : Idle State.reset ∧ Live State.reset := by decide
theorem witness_StartupUpdatePoints :
    (Idle (stopping 0 [] 0) ∧ (stopping 0 [] 0).bus.completes = some 0 ∧ 0 < 55) ∧
      Idle (stopping 0 [] 54) ∧ (stopping 0 [] 54).bus.completes = some 54 ∧ 54 < 55 := by decide
theorem witness_UnrecognisedCodesFallBack :
    Idle State.reset ∧ Live State.reset ∧ (7 : Byte) < 8 ∧ (7 : Byte) < 255 ∧ (2 : Byte) < 3 ∧ (2 : Byte) < 255 := by decide
theorem witness_RateCodesAreOneToOne : P0.wellFormed = true ∧ freqOf 7 = freqOf 7 ∧ actActive P0 7 = actActive P0 7 := by
  decide
theorem witness_StandbyWritesTheHundredHertzValue : Idle configured ∧ Live configured := by decide
theorem witness_EnableIntConfiguresClearsAndArms :
    Idle (offering 0 [0x19, 0x00, 0xC4, 0x82]) ∧ Live (offering 0 [0x19, 0x00, 0xC4, 0x82]) := by decide
theorem witness_EnableIntWritesTheRegistersInOrder :
    Idle (oneSample none) ∧ Live (oneSample none) ∧ (oneSample none).params.fifoDepth = 32 := by decide
theorem witness_StuckEnableIntDoesNotArm :
    Idle (stopping 0 [0x18, 0x00, 0xC4, 0x82] 61) ∧
      ∃ t, exec (.enableInt 0 0) (stopping 0 [0x18, 0x00, 0xC4, 0x82] 61) = .next t ∧ t.busy = true :=
  ⟨by decide, _, rfl, by decide⟩
theorem witness_GetRateAnswersTheCache :
    (configured.busy = false ∧ configured.cacheWritten = true) ∧
      State.reset.busy = false ∧ State.reset.cacheWritten = false := by decide
theorem witness_GetFreqAnswersTheCache :
    (configured.busy = false ∧ configured.cacheWritten = true) ∧
      State.reset.busy = false ∧ State.reset.cacheWritten = false := by decide
theorem witness_ReadFifoLenMasksTheCount : Idle (offering 0 [0xFF]) ∧ Live (offering 0 [0xFF]) := by decide
theorem witness_ReadFifoOfZeroEntries : State.reset.busy = false := rfl
/-- With one sample, and with none (`a` = 1 and a status byte of 0). -/
theorem witness_ReadFifoTransfersTheBurst :
    ((1 : Byte) ≠ 0 ∧ Idle (oneSample none) ∧ Live (oneSample none) ∧ fifoSamples P0 1 (oneSample none).bus = 1) ∧
      (255 : Byte) ≠ 0 ∧ Idle (offering 0 [0]) ∧ Live (offering 0 [0]) ∧ fifoSamples P0 255 (offering 0 [0]).bus = 0 := by
  decide
theorem witness_ReadFifoStoresOnlyTheBuffer :
    (1 : Byte) ≠ 0 ∧ Idle (oneSample none) ∧ Live (oneSample none) ∧
      5 < 6 * (fifoSamples P0 1 (oneSample none).bus).toNat ∧
      6 * (fifoSamples P0 1 (oneSample none).bus).toNat ≤ ((0x1006 : Addr) - 0x1000).toNat := by decide
/-- At the first address beyond the buffer of one sample, and of the longest transfer. -/
theorem witness_ReadFifoNeverWritesBeyondTheBuffer :
    Idle (oneSample (some 9)) ∧ (∃ t, exec (.readFifo true 1 0x1000) (oneSample (some 9)) = .next t) ∧
      (∃ t, exec (.readFifo false 1 0x1000) (oneSample (some 9)) = .next t) ∧
      6 * min (1 : Byte).toNat 63 ≤ ((0x1006 : Addr) - 0x1000).toNat ∧
      6 * min (255 : Byte).toNat 63 ≤ ((0x117A : Addr) - 0x1000).toNat :=
  ⟨by decide, ⟨_, rfl⟩, ⟨_, rfl⟩, by decide, by decide⟩
theorem witness_DiscardDrainsLikeStoring : Idle (oneSample none) ∧ Live (oneSample none) := by decide
/-- With one sample on a bus that completes everything, with none, and stopped before the last primitive. -/
theorem witness_FifoBurstLength :
    ((1 : Byte) ≠ 0 ∧ Idle (oneSample none) ∧ Live (oneSample none) ∧ fifoSamples P0 1 (oneSample none).bus = 1) ∧
      (Idle (offering 0 [0]) ∧ Live (offering 0 [0]) ∧ fifoSamples P0 1 (offering 0 [0]).bus = 0) ∧
      Idle (oneSample (some 14)) ∧ ∃ t, exec (.readFifo true 1 0x1000) (oneSample (some 14)) = .next t ∧ t.busy = true :=
  ⟨by decide, by decide, by decide, _, rfl, by decide⟩
theorem witness_ReadTapCachesTheByte : Idle (offering 0 [0xC4]) ∧ Live (offering 0 [0xC4]) := by decide
theorem witness_ReadOrientCachesTheByte : Idle (offering 0 [0x82]) ∧ Live (offering 0 [0x82]) := by decide
theorem witness_ReadIntSrcAnswersTheByte : Idle (offering 0 [0x08]) ∧ Live (offering 0 [0x08]) := by decide
/-- STANDBY answers next, and is none of the instructions that the frame statements on the configuration, `present`,
the snapshots, the arming, the FIFO scratch registers and memory leave out. -/
theorem witness_frames :
    (∃ t, exec .standby configured = .next t) ∧ (∀ a b, Instr.standby ≠ .startup a b) ∧ Instr.standby ≠ .verifyId ∧
      (∀ a b, Instr.standby ≠ .enableInt a b) ∧ Instr.standby ≠ .readTap ∧ Instr.standby ≠ .readOrient ∧
      Instr.standby ≠ .readFifoLen ∧ (∀ st a d, Instr.standby ≠ .readFifo st a d) ∧
      (∀ a d, Instr.standby ≠ .readFifo true a d) :=
  ⟨⟨_, rfl⟩, by simp, by decide, by simp, by decide, by decide, by decide, by simp, by simp⟩
theorem witness_OnlyStartupAndStandbyChangeFsm :
    (∀ a b, Instr.readTap ≠ .startup a b) ∧ Instr.readTap ≠ .standby ∧ ∃ t, exec .readTap configured = .next t :=
  ⟨by simp, by decide, _, rfl⟩
theorem witness_OnlyEnableIntArms :
    { configured with irqArmed := true }.irqArmed = true ∧
      ∃ t, exec .standby { configured with irqArmed := true } = .next t := ⟨rfl, _, rfl⟩
/-- The discard path of READ_FIFO stores nothing although it reads samples. -/
theorem witness_OnlyStoringReadFifoWritesMemory :
    (∀ a d, Instr.readFifo false 1 0 ≠ .readFifo true a d) ∧
      ∃ t, exec (.readFifo false 1 0) (oneSample none) = .next t := ⟨by simp, _, rfl⟩
theorem witness_TraceGrowsAndParametersStay :
    (∃ t, step running = .next t) ∧ ∃ t, exec .getRate configured = .next t := ⟨⟨_, rfl⟩, _, rfl⟩
theorem witness_EveryCommandRespondsOnce :
    (Instr.enableInt 0 0).isCommand = true ∧ Idle State.reset ∧ Live State.reset := by decide
/-- Also the witness of `SlowBusGivesTheSameResult`: a READ_FIFO stopped after nine primitives, in its burst. -/
theorem witness_StuckCommandWaitsForEver :
    (Instr.readFifo true 1 0x1000).isCommand = true ∧ Idle (oneSample (some 9)) ∧
      (oneSample (some 9)).resetPin = false ∧ (oneSample (some 9)).bus.completes = some 9 ∧
      ∃ t, exec (.readFifo true 1 0x1000) (oneSample (some 9)) = .next t ∧ t.busy = true :=
  ⟨rfl, by decide, rfl, rfl, _, rfl, by decide⟩
theorem witness_StepKeepsLocalInv :
    LocalInv configured ∧ (∃ t, step configured = .next t) ∧ LocalInv running ∧ ∃ t, step running = .next t :=
  ⟨by decide, ⟨_, rfl⟩, by decide, _, rfl⟩
theorem witness_StepKeepsCommandInv :
    CommandInv (offering 0x4009080000000000 []) ∧ (∃ t, step (offering 0x4009080000000000 []) = .next t) ∧
      CommandInv running ∧ ∃ t, step running = .next t :=
  ⟨by decide, ⟨_, rfl⟩, by decide, _, rfl⟩
theorem witness_StepNeverStops :
    CommandInv running ∧ running.primIn = none ∧ CommandInv State.reset ∧ State.reset.primIn = none := by decide

end Sys2Proof.Tests
end

section
/-! PROOFS. The word on offer: what an idle block fetches, and the step that runs it (R17, R60). -/

namespace Sys2Proof.Machine

/-- Out of reset, idle and with the primitive channel empty, the block looks at the command channel. -/
theorem fetch_eq_fetchCommand {s : State} (hreset : s.resetPin = false) (hidle : s.busy = false)
    (hprim : s.primIn = none) : fetch s = fetchCommand s := by
  simp [fetch, hreset, hidle, hprim]

/-- A word that selects a row is taken off the command channel to be run. -/
theorem fetchCommand_eq_run {s : State} {w : CmdWord} {rest : List CmdWord} {i : Instr}
    (hoffer : s.cmdIn = w :: rest) (hdecode : decode (.command w) = .ok i) :
    fetchCommand s = .run i { s with cmdIn := rest } := by
  simp [fetchCommand, hoffer, hdecode]

/-- The step is the meaning of the instruction that was fetched. -/
theorem step_eq_exec_of_fetch {s s' : State} {i : Instr} (hfetch : fetch s = .run i s') : step s = exec i s' := by
  simp [step, hfetch]

/-- Settles O5: the fetch of an idle block is that of its command channel, and the step runs what was fetched. -/
theorem stepRunsTheOfferedCommand : Obligations.StepRunsTheOfferedCommand := by
  intro s w rest i hreset hidle hprim hoffer hdecode
  have hfetch : fetch s = .run i { s with cmdIn := rest } :=
    (fetch_eq_fetchCommand hreset hidle hprim).trans (fetchCommand_eq_run hoffer hdecode)
  exact step_eq_exec_of_fetch hfetch

end Sys2Proof.Machine
end

section
/-! PROOFS. The tables of the rate codes: the frequencies (R73), the data-rate field and the activation values (R74). -/

namespace Sys2Proof.Machine

/-! What a well-formed parameter set says of `ACTIVE_MASK` and of `DR_ENC` (R5). -/

theorem activeMask_and_of_wellFormed {p : Params} (h : p.wellFormed = true) : p.activeMask &&& 0x38 = 0 := by
  simp only [Params.wellFormed, Bool.and_eq_true] at h
  obtain ⟨⟨⟨_, houtside⟩, _⟩, _⟩ := h
  exact eq_of_beq houtside

theorem ratesDistinct_of_wellFormed {p : Params} (h : p.wellFormed = true) : p.ratesDistinct = true := by
  simp only [Params.wellFormed, Bool.and_eq_true] at h
  obtain ⟨⟨_, hdistinct⟩, _⟩ := h
  exact hdistinct

/-- The distinctness check looks `DR(k)` up in the list of encodings. -/
theorem drEnc_getD_eq_dataRate (p : Params) (k : BitVec 3) : p.drEnc.toList.getD k.toNat 0 = dataRate p k := by
  have hk : k.toNat < 8 := k.isLt
  simp [dataRate, List.getD_eq_getElem?_getD, hk]

theorem dataRate_injective {p : Params} (h : p.wellFormed = true) : Function.Injective (dataRate p) := by
  intro j k heq
  have hdistinct := ratesDistinct_of_wellFormed h
  simp only [Params.ratesDistinct, List.all_eq_true, List.mem_range] at hdistinct
  have hjk := hdistinct j.toNat j.isLt k.toNat k.isLt
  rw [drEnc_getD_eq_dataRate, drEnc_getD_eq_dataRate, heq] at hjk
  exact BitVec.eq_of_toNat_eq (by simpa using hjk)

/-! The activation values (R74): the standby value lies within bits 5..3, and the active bit outside of them. -/

theorem actStandby_and_fieldMask (p : Params) (k : BitVec 3) : actStandby p k &&& 0x38 = actStandby p k := by
  unfold actStandby
  generalize dataRate p k = f
  revert f; decide

theorem actStandby_extract (p : Params) (k : BitVec 3) : (actStandby p k).extractLsb' 3 3 = dataRate p k := by
  unfold actStandby
  generalize dataRate p k = f
  revert f; decide

theorem extract_eq_zero_of_and_fieldMask {m : Byte} (h : m &&& 0x38 = 0) : m.extractLsb' 3 3 = 0 :=
  calc m.extractLsb' 3 3
    _ = m.extractLsb' 3 3 &&& BitVec.allOnes 3 := BitVec.and_allOnes.symm
    _ = (m &&& 0x38).extractLsb' 3 3 := by rw [BitVec.extractLsb'_and]; rfl
    _ = 0 := by rw [h]; rfl

theorem actStandby_and_activeMask {p : Params} (h : p.wellFormed = true) (k : BitVec 3) :
    actStandby p k &&& p.activeMask = 0 :=
  calc actStandby p k &&& p.activeMask
    _ = actStandby p k &&& 0x38 &&& p.activeMask := by rw [actStandby_and_fieldMask]
    _ = actStandby p k &&& (p.activeMask &&& 0x38) := by rw [BitVec.and_assoc, BitVec.and_comm 0x38]
    _ = 0 := by rw [activeMask_and_of_wellFormed h]; exact BitVec.and_zero

theorem actActive_and_activeMask (p : Params) (k : BitVec 3) : actActive p k &&& p.activeMask = p.activeMask := by
  ext i hi
  simpa [actActive] using Or.inr

theorem actActive_extract {p : Params} (h : p.wellFormed = true) (k : BitVec 3) :
    (actActive p k).extractLsb' 3 3 = dataRate p k := by
  rw [actActive, BitVec.extractLsb'_or, actStandby_extract,
    extract_eq_zero_of_and_fieldMask (activeMask_and_of_wellFormed h)]
  exact BitVec.or_zero

/-- The data-rate field can be read back from the activation value, and it tells the rate code. -/
theorem actActive_injective {p : Params} (h : p.wellFormed = true) : Function.Injective (actActive p) := by
  intro j k heq
  apply dataRate_injective h
  rw [← actActive_extract h j, heq, actActive_extract h k]

/-! The frequencies (R73). -/

theorem rateCodes_complete (k : BitVec 3) : k ∈ [(0 : BitVec 3), 1, 2, 3, 4, 5, 6, 7] := by
  revert k; decide

theorem freqOf_table :
    [(0 : BitVec 3), 1, 2, 3, 4, 5, 6, 7].map freqOf = [80000, 40000, 20000, 10000, 5000, 1250, 625, 156] := rfl

/-- No two rows of R73's table hold the same frequency. -/
theorem freqOf_injective : Function.Injective freqOf := by
  have hrows : ([(0 : BitVec 3), 1, 2, 3, 4, 5, 6, 7].map freqOf).Nodup := by rw [freqOf_table]; decide
  intro j k heq
  exact List.inj_on_of_nodup_map hrows (rateCodes_complete j) (rateCodes_complete k) heq

/-- Settles O23: the table of R73 row by row, and the data-rate field that carries the code in the values of R74. -/
theorem rateCodesAreOneToOne : Obligations.RateCodesAreOneToOne :=
  ⟨freqOf_table, fun _ _ heq => freqOf_injective heq, fun _ h _ _ heq => actActive_injective h heq,
    fun p h k => ⟨actStandby_and_activeMask h k, actActive_and_activeMask p k, actActive_extract h k⟩⟩

end Sys2Proof.Machine
end

section
/-! PROOFS. Carrying out micro-steps whose primitives are known beforehand: what they leave of the state on a bus that
completes them all, and where they stop on one that does not (R17, R52, R91, R222). -/

namespace Sys2Proof.Machine

/-! ### The state after a list of primitives -/

/-- `s` after the primitives `l` of one command, with the session at `x`. -/
def carriedOut (l : List Prim) (x : Sess) (s : State) : State :=
  { s with
    sess := x
    trace := s.trace ++ primRecords l
    upc := if s.busy then s.upc + l.length else s.upc
    readByte := l.foldl (fun v q => q.returned v) s.readByte
    bus := busAfter s.params l s.bus }

@[simp] theorem primRecords_append (l m : List Prim) : primRecords (l ++ m) = primRecords l ++ primRecords m :=
  List.map_append

theorem carriedOut_nil (s : State) : carriedOut [] s.sess s = s := by
  simp [carriedOut, primRecords, busAfter_nil]

theorem carriedOut_carriedOut (l m : List Prim) (x y : Sess) (s : State) :
    carriedOut m y (carriedOut l x s) = carriedOut (l ++ m) y s := by
  cases hb : s.busy <;> simp [carriedOut, busAfter_append, hb, Nat.add_assoc]

theorem completePrim_eq_carriedOut (q : Prim) (s : State) : completePrim q s = carriedOut [q] s.sess s := rfl

theorem carriedOut_completePrim (q : Prim) (l : List Prim) (x : Sess) (s : State) :
    carriedOut l x (completePrim q s) = carriedOut (q :: l) x s := by
  rw [completePrim_eq_carriedOut, carriedOut_carriedOut]; rfl

theorem carriedOut_bus (l : List Prim) (x : Sess) (s : State) :
    (carriedOut l x s).bus = busAfter s.params l s.bus := rfl

/-! ### A bus that lasts -/

/-- The bus completes the next `n` primitives it is given. -/
def Bus.lasts (n : Nat) (b : Bus) : Prop := ∀ k, b.completes = some k → n ≤ k

theorem lasts_of_none (n : Nat) {b : Bus} (h : b.completes = none) : b.lasts n := by
  intro k hk; simp [h] at hk

theorem lasts_of_le {n k : Nat} {b : Bus} (hk : b.completes = some k) (hn : n ≤ k) : b.lasts n := by
  intro j hj; rw [hk] at hj; cases hj; exact hn

theorem live_of_lasts {n : Nat} {b : Bus} (h : b.lasts (n + 1)) : b.live = true := by
  cases hb : b.completes with
  | none => exact live_of_none hb
  | some k =>
    have hk := h k hb
    rw [live_of_some hb]; exact decide_eq_true (by omega)

theorem after_lasts {n : Nat} {b : Bus} (p : Params) (q : Prim) (h : b.lasts (n + 1)) : (b.after p q).lasts n := by
  intro k hk
  cases hb : b.completes with
  | none => simp [hb] at hk
  | some j =>
    have hj := h j hb
    simp [hb] at hk; omega

theorem busAfter_completes_some (p : Params) (l : List Prim) {k : Nat} {b : Bus} (h : b.completes = some k) :
    (busAfter p l b).completes = some (k - l.length) := by
  induction l generalizing k b with
  | nil => simpa [busAfter_nil] using h
  | cons q l ih =>
    rw [busAfter_cons, ih (k := k - 1) (by simp [h]), List.length_cons]
    congr 1; omega

theorem busAfter_lasts (p : Params) (l : List Prim) {n : Nat} {b : Bus} (h : b.lasts (l.length + n)) :
    (busAfter p l b).lasts n := by
  intro k hk
  cases hb : b.completes with
  | none => simp [busAfter_completes_none p l hb] at hk
  | some j =>
    have hj := h j hb
    rw [busAfter_completes_some p l hb] at hk
    injection hk with hk; omega

theorem run_act (e : Action) (l : List Micro) (s : State) : run (.act e :: l) s = run l (e.apply s) := rfl

/-- A primitive that the bus completes is carried out and the rest goes on. -/
theorem run_issue (q : Prim) (l : List Micro) {s : State} (h : s.bus.live = true) :
    run (.issue q :: l) s = run l (completePrim q s) := by simp [run, h]

/-- The block stays at a primitive that the bus does not complete. -/
theorem run_issue_dead (q : Prim) (l : List Micro) {s : State} (h : s.bus.live = false) :
    run (.issue q :: l) s = s := by simp [run, h]

/-! ### Quiet micro-steps: known primitives and changes of the session state, nothing else -/

/-- A micro-step that issues a primitive known beforehand, or sets the session state. -/
def Micro.quiet : Micro → Bool
  | .issue _ => true
  | .act (.setSess _) => true
  | _ => false

/-- The primitives of quiet micro-steps. -/
def issued : List Micro → List Prim
  | [] => []
  | .issue q :: l => q :: issued l
  | _ :: l => issued l

/-- The session state that quiet micro-steps lead to from `x`. -/
def sessAfter : Sess → List Micro → Sess
  | x, [] => x
  | _, .act (.setSess y) :: l => sessAfter y l
  | x, _ :: l => sessAfter x l

/-- On a bus that lasts for them, quiet micro-steps are carried out and the rest goes on. -/
theorem run_quiet {l : List Micro} (hquiet : l.all Micro.quiet = true) (rest : List Micro) (s : State)
    (hbus : s.bus.lasts (issued l).length) :
    run (l ++ rest) s = run rest (carriedOut (issued l) (sessAfter s.sess l) s) := by
  induction l generalizing s with
  | nil => exact congrArg (run rest) (carriedOut_nil s).symm
  | cons m l ih =>
    obtain ⟨hm, hl⟩ : m.quiet = true ∧ l.all Micro.quiet = true := by simpa using hquiet
    cases m with
    | issue q =>
      have hlive : s.bus.live = true := live_of_lasts hbus
      have hrest := ih hl (completePrim q s) (after_lasts _ q hbus)
      rw [carriedOut_completePrim] at hrest
      exact (run_issue q _ hlive).trans hrest
    | act e =>
      cases e with
      | setSess x => exact ih hl { s with sess := x } hbus
      | _ => cases hm
    | _ => cases hm

/-- On a bus that stops within them, the block stays at the first primitive that the bus does not complete. -/
theorem run_quiet_stopped {l : List Micro} (hquiet : l.all Micro.quiet = true) (rest : List Micro) {k : Nat} (s : State)
    (hbus : s.bus.completes = some k) (hk : k < (issued l).length) :
    ∃ x, run (l ++ rest) s = carriedOut ((issued l).take k) x s := by
  induction l generalizing s k with
  | nil => simp [issued] at hk
  | cons m l ih =>
    obtain ⟨hm, hl⟩ : m.quiet = true ∧ l.all Micro.quiet = true := by simpa using hquiet
    cases m with
    | issue q =>
      cases k with
      | zero =>
        have hdead : s.bus.live = false := live_of_some hbus
        exact ⟨s.sess, (run_issue_dead q _ hdead).trans (carriedOut_nil s).symm⟩
      | succ k =>
        have hlive : s.bus.live = true := live_of_some hbus
        obtain ⟨x, hx⟩ := ih hl (completePrim q s) (by simp [hbus]) (Nat.lt_of_succ_lt_succ hk)
        rw [carriedOut_completePrim] at hx
        exact ⟨x, (run_issue q _ hlive).trans hx⟩
    | act e =>
      cases e with
      | setSess y => exact ih hl { s with sess := y } hbus hk
      | _ => cases hm
    | _ => cases hm

/-- Quiet micro-steps after the primitives `m` of the same command. -/
theorem run_quiet_carriedOut {l : List Micro} (hquiet : l.all Micro.quiet = true) (rest : List Micro) (m : List Prim)
    (x : Sess) (s : State) (hbus : s.bus.lasts (m.length + (issued l).length)) :
    run (l ++ rest) (carriedOut m x s) = run rest (carriedOut (m ++ issued l) (sessAfter x l) s) := by
  rw [run_quiet hquiet rest _ (busAfter_lasts s.params m hbus), carriedOut_carriedOut]; rfl

/-- The block stays within quiet micro-steps that follow the primitives `m` of the same command. -/
theorem run_quiet_carriedOut_stopped {l : List Micro} (hquiet : l.all Micro.quiet = true) (rest : List Micro)
    (m : List Prim) (x : Sess) {j : Nat} (s : State) (hbus : s.bus.completes = some (m.length + j))
    (hj : j < (issued l).length) :
    ∃ y, run (l ++ rest) (carriedOut m x s) = carriedOut (m ++ (issued l).take j) y s := by
  have hleft : (carriedOut m x s).bus.completes = some j := by
    rw [carriedOut_bus, busAfter_completes_some s.params m hbus, Nat.add_sub_cancel_left]
  obtain ⟨y, hy⟩ := run_quiet_stopped hquiet rest _ hleft hj
  exact ⟨y, hy.trans (carriedOut_carriedOut ..)⟩

/-! ### Write groups and commands -/

/-- The write groups of a table in one session, a `Reopen` between every two (R122). -/
def groupLines (gs : List (Byte × List Byte)) : List Line := reopened (gs.map fun g => writeGroup g.1 g.2)

theorem issued_append (l m : List Micro) : issued (l ++ m) = issued l ++ issued m := by
  induction l with
  | nil => rfl
  | cons x l ih => cases x <;> simp [issued, ih]

theorem expand_append (p : Params) (l m : List Line) : expand p (l ++ m) = expand p l ++ expand p m :=
  List.flatMap_append

theorem expand_act (p : Params) (e : Action) (l : List Line) : expand p (.act e :: l) = .act e :: expand p l := rfl

/-- A write group is its address, its register and its data bytes. -/
theorem writeGroup_quiet (p : Params) (r : Byte) (bs : List Byte) :
    (expand p (writeGroup r bs)).all Micro.quiet = true ∧
      issued (expand p (writeGroup r bs)) = .wr (devW p) :: .wr r :: bs.map .wr := by
  have hdata : (expand p (bs.map fun b => .op (.writeData b))).all Micro.quiet = true ∧
      issued (expand p (bs.map fun b => .op (.writeData b))) = bs.map .wr := by
    induction bs with
    | nil => exact ⟨rfl, rfl⟩
    | cons b bs ih => exact ⟨ih.1, congrArg (Prim.wr b :: ·) ih.2⟩
  exact ⟨hdata.1, congrArg (Prim.wr (devW p) :: .wr r :: ·) hdata.2⟩

/-- The groups of a table issue the primitives of R122. -/
theorem groupLines_quiet (p : Params) (gs : List (Byte × List Byte)) :
    (expand p (groupLines gs)).all Micro.quiet = true ∧ issued (expand p (groupLines gs)) = writeGroups p gs := by
  induction gs with
  | nil => exact ⟨rfl, rfl⟩
  | cons g gs ih =>
    obtain ⟨r, bs⟩ := g
    obtain ⟨hquiet, hissued⟩ := writeGroup_quiet p r bs
    cases gs with
    | nil => exact ⟨hquiet, hissued⟩
    | cons g gs =>
      obtain ⟨ihquiet, ihissued⟩ := ih
      have hexpand : expand p (groupLines ((r, bs) :: g :: gs)) = expand p (writeGroup r bs) ++
          Micro.issue .busRestart :: .act (.setSess .ready) :: expand p (groupLines (g :: gs)) := expand_append ..
      have hreopen : ∀ l, issued (.issue .busRestart :: .act (.setSess .ready) :: l) = .busRestart :: issued l :=
        fun _ => rfl
      rw [hexpand]
      constructor
      · rw [List.all_append, hquiet]; exact ihquiet
      · rw [issued_append, hreopen, hissued, ihissued]; rfl

/-- An idle block accepts a command and carries it out. -/
theorem command_idle (i : Instr) (l : List Line) {s : State} (hidle : Idle s) :
    command i l s = .next (run (expand s.params l) (accept i s)) := by
  simp [command, hidle.1, hidle.2]

end Sys2Proof.Machine
end

section
/-! PROOFS. The register writes that a listener reads off the primitives of a session by the device contract (R43). -/

namespace Sys2Proof.Machine

/-- The register writes of one burst: its data bytes at consecutive registers from `r` on. -/
def burstWrites : Byte → List Byte → List (Byte × Byte)
  | _, [] => []
  | r, b :: bs => (r, b) :: burstWrites (r + 1) bs

theorem registerWrites_data (p : Params) (r : Byte) (bs : List Byte) (l : List Prim) :
    ∃ r', registerWrites p (.burst r) (bs.map .wr ++ l) = burstWrites r bs ++ registerWrites p (.burst r') l := by
  induction bs generalizing r with
  | nil => exact ⟨r, rfl⟩
  | cons b bs ih =>
    obtain ⟨r', h⟩ := ih (r + 1)
    exact ⟨r', congrArg ((r, b) :: ·) h⟩

/-- The device's write address opens a write burst at the register that follows it. -/
theorem registerWrites_addressed (p : Params) (r : Byte) (l : List Prim) :
    registerWrites p .addr (.wr (devW p) :: .wr r :: l) = registerWrites p (.burst r) l := by
  simp [registerWrites]

/-- The write groups of a session write their data bytes, group by group, and nothing else. -/
theorem registerWrites_writeGroups (p : Params) (gs : List (Byte × List Byte)) (l : List Prim) (hgs : gs ≠ []) :
    registerWrites p .addr (writeGroups p gs ++ Prim.busStop :: l) =
      gs.flatMap (fun g => burstWrites g.1 g.2) ++ registerWrites p .idle l := by
  induction gs with
  | nil => exact absurd rfl hgs
  | cons g gs ih =>
    obtain ⟨r, bs⟩ := g
    cases gs with
    | nil =>
      obtain ⟨r', h⟩ := registerWrites_data p r bs (.busStop :: l)
      simpa [writeGroups, registerWrites_addressed, registerWrites] using h
    | cons g gs =>
      obtain ⟨r', h⟩ := registerWrites_data p r bs (.busRestart :: (writeGroups p (g :: gs) ++ Prim.busStop :: l))
      have hrest := ih (by simp)
      simp only [registerWrites] at h
      rw [hrest] at h
      simpa [writeGroups, registerWrites_addressed] using h

/-- The read address is not the write address. -/
theorem devR_ne_devW (p : Params) : devR p ≠ devW p := by
  unfold devR devW
  generalize p.devAddr7 = d
  revert d; decide

/-- An addressed read leaves the listener without a write burst. -/
theorem registerWrites_readHead (p : Params) (m : Listen) (r : Byte) (l : List Prim) :
    registerWrites p m (readHead p r ++ l) = registerWrites p .idle l := by
  cases m <;> simp [readHead, registerWrites, devR_ne_devW]

theorem registerWrites_readBurst (p : Params) (m : Listen) (bs : List Byte) (l : List Prim) :
    registerWrites p m (readBurst bs ++ l) = registerWrites p m l := by
  induction bs with
  | nil => rfl
  | cons v bs ih =>
    cases bs with
    | nil => cases m <;> simp [readBurst, registerWrites]
    | cons w bs => cases m <;> simpa [readBurst, registerWrites] using ih

/-- A session that reads one register writes none. -/
theorem registerWrites_readSession (p : Params) (m : Listen) (r v : Byte) (l : List Prim) :
    registerWrites p m (readSession p r v ++ l) = registerWrites p .idle l := by
  rw [readSession, List.append_assoc, registerWrites_readHead]
  simp [registerWrites]

/-- A FIFO burst session writes no register. -/
theorem registerWrites_fifoSession (p : Params) (m : Listen) (bs : List Byte) (l : List Prim) :
    registerWrites p m (fifoSession p bs ++ l) = registerWrites p .idle l := by
  rw [fifoSession, List.append_assoc, List.append_assoc, registerWrites_readHead, registerWrites_readBurst]
  simp [registerWrites]

/-- A session of write groups writes the bytes of its table. -/
theorem registerWrites_writeSession (p : Params) (gs : List (Byte × List Byte)) (hgs : gs ≠ []) :
    registerWrites p .idle (writeSession p gs) = gs.flatMap fun g => burstWrites g.1 g.2 :=
  (registerWrites_writeGroups p gs [.busClose] hgs).trans (List.append_nil _)

end Sys2Proof.Machine
end

section
/-! PROOFS. STARTUP (R124): its micro-steps up to each of its two update points, the registers it writes, and where it
stands when the bus stops it. -/

namespace Sys2Proof.Machine

/-! ### The operand bytes of STARTUP -/

theorem effRate_setWidth (a : Byte) : (effRate a).setWidth 8 = if a ≤ 7 then a else 3 := by
  unfold effRate
  split
  · next h => bv_omega
  · rfl

theorem rangeEnc_setWidth (b : Byte) : (rangeEnc b).setWidth 8 = if b ≤ 2 then b else 1 := by
  unfold rangeEnc
  split
  · next h => bv_omega
  · rfl

/-- The low two bits of `DataCfg(b)` are the range encoding (R75, R76). -/
theorem dataCfg_and_rangeMask (p : Params) (b : Byte) : dataCfg p b &&& 0x03 = if b ≤ 2 then b else 1 := by
  have hrange : ∀ e : BitVec 2, e.setWidth 8 &&& 0x03 = e.setWidth 8 := by decide
  calc dataCfg p b &&& 0x03
    _ = p.dataCfgBase &&& 0xFC &&& 0x03 ||| (rangeEnc b).setWidth 8 &&& 0x03 := BitVec.and_or_distrib_right
    _ = 0 ||| (rangeEnc b).setWidth 8 := by rw [BitVec.and_assoc, hrange]; congr 1; exact BitVec.and_zero
    _ = if b ≤ 2 then b else 1 := BitVec.zero_or.trans (rangeEnc_setWidth b)

/-- The other six bits of `DataCfg(b)` are those of `DATA_CFG_BASE` (R75). -/
theorem dataCfg_and_baseMask (p : Params) (b : Byte) : dataCfg p b &&& 0xFC = p.dataCfgBase &&& 0xFC := by
  have hrange : ∀ e : BitVec 2, e.setWidth 8 &&& 0xFC = (0 : Byte) := by decide
  calc dataCfg p b &&& 0xFC
    _ = p.dataCfgBase &&& 0xFC &&& 0xFC ||| (rangeEnc b).setWidth 8 &&& 0xFC := BitVec.and_or_distrib_right
    _ = p.dataCfgBase &&& 0xFC ||| 0 := by rw [BitVec.and_assoc, BitVec.and_self, hrange]
    _ = p.dataCfgBase &&& 0xFC := BitVec.or_zero

/-! ### The parts of STARTUP between its update points -/

/-- The primitives of STARTUP up to the end of G7, where the cached configuration is updated (R131). -/
def startupUpToG7 (p : Params) (a b : Byte) : List Prim :=
  .busOpen :: .busStart :: writeGroups p ((startupTable p a b).take 7)

/-- The primitives of STARTUP from the `Reopen` before G8 to the write of `ActActive`, after which `fsm` is ACTIVE
(R134). -/
def startupFromG8 (p : Params) (a b : Byte) : List Prim := .busRestart :: writeGroups p ((startupTable p a b).drop 7)

theorem startupUpToG7_length (p : Params) (a b : Byte) : (startupUpToG7 p a b).length = 38 := rfl

/-- STARTUP's session is its two parts and the closing of the session. -/
theorem writeSession_startup (p : Params) (a b : Byte) :
    writeSession p (startupTable p a b) = startupUpToG7 p a b ++ startupFromG8 p a b ++ [Prim.busStop, .busClose] := rfl

/-- The micro-steps of the first part. -/
def startupUpToG7Steps (p : Params) (a b : Byte) : List Micro :=
  expand p (.op .sessOpen :: groupLines ((startupTable p a b).take 7))

/-- The micro-steps of the second part. -/
def startupFromG8Steps (p : Params) (a b : Byte) : List Micro :=
  expand p (.op .reopen :: groupLines ((startupTable p a b).drop 7))

/-- The micro-steps that close a session. -/
def closingSteps : List Micro := [.issue .busStop, .issue .busClose, .act (.setSess .closed)]

theorem startupUpToG7Steps_quiet (p : Params) (a b : Byte) :
    (startupUpToG7Steps p a b).all Micro.quiet = true ∧ issued (startupUpToG7Steps p a b) = startupUpToG7 p a b := by
  obtain ⟨hquiet, hissued⟩ := groupLines_quiet p ((startupTable p a b).take 7)
  exact ⟨hquiet, congrArg (Prim.busOpen :: .busStart :: ·) hissued⟩

theorem startupFromG8Steps_quiet (p : Params) (a b : Byte) :
    (startupFromG8Steps p a b).all Micro.quiet = true ∧ issued (startupFromG8Steps p a b) = startupFromG8 p a b := by
  obtain ⟨hquiet, hissued⟩ := groupLines_quiet p ((startupTable p a b).drop 7)
  exact ⟨hquiet, congrArg (Prim.busRestart :: ·) hissued⟩

theorem closingSteps_quiet : closingSteps.all Micro.quiet = true ∧ issued closingSteps = [.busStop, .busClose] :=
  ⟨rfl, rfl⟩

/-- STARTUP is its two parts and the closing of the session, an update point after each part. -/
theorem expand_startupLines (p : Params) (a b : Byte) :
    expand p (startupLines p a b) = .act (.setFsm .configuring) :: (startupUpToG7Steps p a b ++
      Micro.act (.cacheConfig a b) :: (startupFromG8Steps p a b ++
        Micro.act (.setFsm .active) :: (closingSteps ++ [Micro.act (.reply .zero)]))) := by
  have hlines : startupLines p a b = .act (.setFsm .configuring) ::
      (Line.op .sessOpen :: groupLines ((startupTable p a b).take 7) ++ Line.act (.cacheConfig a b) ::
        (Line.op .reopen :: groupLines ((startupTable p a b).drop 7) ++
          Line.act (.setFsm .active) :: [.op .sessClose, .act (.reply .zero)])) := rfl
  rw [hlines, expand_act, expand_append, expand_act, expand_append, expand_act]
  rfl

/-! ### STARTUP on a bus that lasts up to an update point -/

/-- What STARTUP leaves of the registers that it writes at its update points, once `k` of its primitives have
completed (R125, R131, R134). -/
def startupRegisters (a b : Byte) (k : Nat) (s : State) : State :=
  { accept (.startup a b) s with
    fsm := if k < 53 then .configuring else .active
    rate := if k < 38 then s.rate else (effRate a).setWidth 8
    range := if k < 38 then s.range else b
    freqChz := if k < 38 then s.freqChz else freqOf (effRate a)
    cacheWritten := if k < 38 then s.cacheWritten else true }

section

variable (a b : Byte) {s : State}

theorem startupRegisters_before {k : Nat} (hk : k < 38) : startupRegisters a b k s = startupRegisters a b 0 s := by
  simp [startupRegisters, hk, Nat.lt_trans hk]

theorem startupRegisters_between {j : Nat} (hj : j < 15) :
    startupRegisters a b (38 + j) s = startupRegisters a b 38 s := by
  simp [startupRegisters, Nat.add_lt_add_left hj 38]

theorem startupRegisters_after (j : Nat) : startupRegisters a b (53 + j) s = startupRegisters a b 53 s := by
  have h38 : ¬ 53 + j < 38 := by omega
  simp [startupRegisters, h38]

/-- An idle block that accepts STARTUP sets `fsm` and goes on to G1. -/
theorem exec_startup (hidle : Idle s) :
    exec (.startup a b) s = .next (run (startupUpToG7Steps s.params a b ++ Micro.act (.cacheConfig a b) ::
      (startupFromG8Steps s.params a b ++ Micro.act (.setFsm .active) :: (closingSteps ++ [Micro.act (.reply .zero)])))
      (startupRegisters a b 0 s)) := by
  have hexec := command_idle (.startup a b) (startupLines s.params a b) hidle
  rw [expand_startupLines] at hexec
  exact hexec

/-- Past G7 the cached configuration is the new one. -/
theorem run_startup_upToG7 (rest : List Micro) (hbus : s.bus.lasts 38) :
    ∃ x, run (startupUpToG7Steps s.params a b ++ Micro.act (.cacheConfig a b) :: rest) (startupRegisters a b 0 s) =
      run rest (carriedOut (startupUpToG7 s.params a b) x (startupRegisters a b 38 s)) := by
  obtain ⟨hquiet, hissued⟩ := startupUpToG7Steps_quiet s.params a b
  have hrun := run_quiet hquiet (.act (.cacheConfig a b) :: rest) (startupRegisters a b 0 s)
    (by rw [hissued]; exact hbus)
  rw [hissued] at hrun
  exact ⟨_, hrun⟩

/-- Past G10 `fsm` is ACTIVE. -/
theorem run_startup_fromG8 (x : Sess) (rest : List Micro) (hbus : s.bus.lasts 53) :
    ∃ y, run (startupFromG8Steps s.params a b ++ Micro.act (.setFsm .active) :: rest)
        (carriedOut (startupUpToG7 s.params a b) x (startupRegisters a b 38 s)) =
      run rest (carriedOut (startupUpToG7 s.params a b ++ startupFromG8 s.params a b) y
        (startupRegisters a b 53 s)) := by
  obtain ⟨hquiet, hissued⟩ := startupFromG8Steps_quiet s.params a b
  have hrun := run_quiet_carriedOut hquiet (.act (.setFsm .active) :: rest) (startupUpToG7 s.params a b) x
    (startupRegisters a b 38 s) (by rw [hissued]; exact hbus)
  rw [hissued] at hrun
  exact ⟨_, hrun⟩

/-- On a bus that completes everything, STARTUP carries out its whole session and responds. -/
theorem exec_startup_live (hidle : Idle s) (hlive : Live s) :
    exec (.startup a b) s = .next (respond 0 0
      (carriedOut (writeSession s.params (startupTable s.params a b)) .closed (startupRegisters a b 53 s))) := by
  have hlasts : ∀ n, s.bus.lasts n := fun n => lasts_of_none n hlive
  obtain ⟨x, hfirst⟩ := run_startup_upToG7 a b (startupFromG8Steps s.params a b ++
    Micro.act (.setFsm .active) :: (closingSteps ++ [Micro.act (.reply .zero)])) (hlasts 38)
  obtain ⟨y, hsecond⟩ := run_startup_fromG8 a b x (closingSteps ++ [Micro.act (.reply .zero)]) (hlasts 53)
  have hclose := run_quiet_carriedOut closingSteps_quiet.1 [.act (.reply .zero)]
    (startupUpToG7 s.params a b ++ startupFromG8 s.params a b) y (startupRegisters a b 53 s) (hlasts _)
  rw [exec_startup a b hidle, hfirst, hsecond, hclose]
  rfl

/-- On a bus that stops within its session, STARTUP stays where the bus stops, its registers updated up to there. -/
theorem exec_startup_stopped {k : Nat} (hidle : Idle s) (hbus : s.bus.completes = some k) (hk : k < 55) :
    ∃ x, exec (.startup a b) s = .next
      (carriedOut ((writeSession s.params (startupTable s.params a b)).take k) x (startupRegisters a b k s)) := by
  have hlen₁ := startupUpToG7_length s.params a b
  obtain ⟨hquiet₁, hissued₁⟩ := startupUpToG7Steps_quiet s.params a b
  obtain ⟨hquiet₂, hissued₂⟩ := startupFromG8Steps_quiet s.params a b
  rw [exec_startup a b hidle, writeSession_startup]
  by_cases h38 : k < 38
  · obtain ⟨x, hstop⟩ := run_quiet_stopped hquiet₁ _ (startupRegisters a b 0 s) hbus (by rw [hissued₁]; exact h38)
    refine ⟨x, congrArg Host.Outcome.next (hstop.trans ?_)⟩
    rw [hissued₁, startupRegisters_before a b h38, List.append_assoc,
      List.take_append_of_le_length (Nat.le_of_lt h38)]
  obtain ⟨x, hfirst⟩ := run_startup_upToG7 a b _ (lasts_of_le hbus (Nat.le_of_not_lt h38))
  rw [hfirst]
  by_cases h53 : k < 53
  · obtain ⟨j, rfl⟩ := Nat.exists_eq_add_of_le (Nat.le_of_not_lt h38)
    have hj : j < 15 := Nat.lt_of_add_lt_add_left h53
    obtain ⟨y, hstop⟩ := run_quiet_carriedOut_stopped hquiet₂ _ (startupUpToG7 s.params a b) x
      (startupRegisters a b 38 s) hbus (by rw [hissued₂]; exact hj)
    refine ⟨y, congrArg Host.Outcome.next (hstop.trans ?_)⟩
    rw [hissued₂, startupRegisters_between a b hj, List.append_assoc, ← hlen₁, List.take_length_add_append,
      List.take_append_of_le_length (Nat.le_of_lt hj)]
  · obtain ⟨j, rfl⟩ := Nat.exists_eq_add_of_le (Nat.le_of_not_lt h53)
    obtain ⟨y, hsecond⟩ := run_startup_fromG8 a b x _ (lasts_of_le hbus (Nat.le_of_not_lt h53))
    obtain ⟨z, hstop⟩ := run_quiet_carriedOut_stopped closingSteps_quiet.1 [.act (.reply .zero)]
      (startupUpToG7 s.params a b ++ startupFromG8 s.params a b) y
      (startupRegisters a b 53 s) hbus (Nat.lt_of_add_lt_add_left hk)
    refine ⟨z, congrArg Host.Outcome.next (hsecond.trans (hstop.trans ?_))⟩
    have hlen : (startupUpToG7 s.params a b ++ startupFromG8 s.params a b).length = 53 := rfl
    rw [closingSteps_quiet.2, startupRegisters_after, ← hlen, List.take_length_add_append]

end

/-! ### The statements -/

/-- Settles O20: the whole session is carried out, and a listener reads R123's table off its primitives. -/
theorem startupWritesTheRegistersInOrder : Obligations.StartupWritesTheRegistersInOrder := by
  intro a b s hidle hlive p k
  refine ⟨_, writeSession p (startupTable p a b), exec_startup_live a b hidle hlive, rfl, rfl, ?_, ?_,
    dataCfg_and_rangeMask p b, dataCfg_and_baseMask p b⟩
  · have hreads : (writeSession p (startupTable p a b)).all (fun q => !q.isRead) = true := rfl
    simpa using hreads
  · exact registerWrites_writeSession p (startupTable p a b) (by simp [startupTable])

/-- Settles O21: the state where the bus stops is that of the first `k` primitives with the registers updated up to
there, and these are read off it one by one. -/
theorem startupUpdatePoints : Obligations.StartupUpdatePoints := by
  intro a b k s hidle hbus hk
  obtain ⟨x, hexec⟩ := exec_startup_stopped a b hidle hbus hk
  have hlength : (writeSession s.params (startupTable s.params a b)).length = 55 := rfl
  have hupc : 0 + ((writeSession s.params (startupTable s.params a b)).take k).length = k := by
    rw [List.length_take, hlength]; omega
  refine ⟨_, hexec, rfl, hupc, rfl, ?_, rfl, rfl, rfl, rfl⟩
  show (if k < 38 then s.rate else (effRate a).setWidth 8) = _
  rw [effRate_setWidth]

end Sys2Proof.Machine
end

section
/-! PROOFS. Sessions with reads on a bus that completes everything: one read, the sample bytes of a discarding FIFO
burst, and the two kinds of read session of ENABLE_INT (R93, R104, R148, R164). -/

namespace Sys2Proof.Machine

/-! ### One read -/

theorem live_carriedOut (l : List Prim) (x : Sess) {s : State} (hlive : Live s) : Live (carriedOut l x s) :=
  busAfter_completes_none s.params l hlive

/-- A completed read is a primitive carried out, the session at RDONE after a byte not acknowledged. -/
theorem completeRead_eq_carriedOut (nack : Bool) (s : State) :
    completeRead nack s =
      carriedOut [readPrim nack (s.bus.supply s.params)] (if nack then .rdone else s.sess) s := by
  cases nack <;> rfl

/-- A read returns the byte that the bus supplies after the primitives so far. -/
theorem run_read (sel : Sel) (rest : List Micro) (m : List Prim) (x : Sess) {s : State} (hlive : Live s) :
    run (.read sel :: rest) (carriedOut m x s) = run rest
      (carriedOut (m ++ [readPrim (sel.nacks (busByte s.params m s.bus)) (busByte s.params m s.bus)])
        (if sel.nacks (busByte s.params m s.bus) then .rdone else x) s) := by
  have hbus : (carriedOut m x s).bus.live = true := live_of_none (live_carriedOut m x hlive)
  have hrun : run (.read sel :: rest) (carriedOut m x s) = run rest (readData sel (carriedOut m x s)) := by
    simp [run, hbus]
  rw [hrun, readData, completeRead_eq_carriedOut, carriedOut_carriedOut]
  rfl

theorem carriedOut_readByte (m : List Prim) (nack : Bool) (v : Byte) (x : Sess) (s : State) :
    (carriedOut (m ++ [readPrim nack v]) x s).readByte = v := by
  cases nack <;> simp [carriedOut, readPrim, Prim.returned]

/-- The micro-steps of `OPEN START` and an addressed read of `reg`, up to its first byte. -/
def readHeadSteps (p : Params) (reg : Byte) : List Micro := expand p [.op .sessOpen, .op (.addrRead reg)]

/-- Up to its first byte, a read session carries out `readHead`. -/
theorem run_readHead (reg : Byte) (rest : List Micro) {s : State} (hlive : Live s) :
    run (readHeadSteps s.params reg ++ rest) s = run rest (carriedOut (readHead s.params reg) .rburst s) :=
  run_quiet (l := readHeadSteps s.params reg) rfl rest s (lasts_of_none _ hlive)

/-- A register is read with one byte, not acknowledged. -/
theorem run_readByte (reg : Byte) (rest : List Micro) {s : State} (hlive : Live s) :
    run (readHeadSteps s.params reg ++ Micro.read .nack :: rest) s =
      run rest (carriedOut (readHead s.params reg ++ [readPrim true (registerByte s reg)]) .rdone s) :=
  (run_readHead reg _ hlive).trans (run_read .nack rest (readHead s.params reg) .rburst hlive)

/-- STOP and CLOSE end a session. -/
theorem run_closing (rest : List Micro) (m : List Prim) (x : Sess) {s : State} (hlive : Live s) :
    run (closingSteps ++ rest) (carriedOut m x s) = run rest (carriedOut (m ++ [Prim.busStop, .busClose]) .closed s) :=
  run_quiet_carriedOut closingSteps_quiet.1 rest m x s (lasts_of_none _ hlive)

/-! ### What is latched after a read: its byte -/

/-- `s` with `v` in `saved_act`. -/
def withSavedAct (v : Byte) (s : State) : State := { s with savedAct := v }

/-- `s` with `v` in `tap_status`. -/
def withTap (v : Byte) (s : State) : State := { s with tapStatus := v, tapWritten := true }

/-- `s` with `v` in `orient_status`. -/
def withOrient (v : Byte) (s : State) : State := { s with orientStatus := v, orientWritten := true }

/-- `s` with the FIFO scratch registers at `f`, `n`, `i` and `k`. -/
def withScratch (f n i : BitVec 6) (k : BitVec 3) (s : State) : State :=
  { s with fifoF := f, fifoN := n, sampI := i, byteK := k }

section

variable (m : List Prim) (nack : Bool) (v : Byte) (f n i : BitVec 6) (k : BitVec 3) (x : Sess) (s : State)

@[simp] theorem carriedOut_params : (carriedOut m x s).params = s.params := rfl
@[simp] theorem withTap_params : (withTap v s).params = s.params := rfl
@[simp] theorem withScratch_params : (withScratch f n i k s).params = s.params := rfl

@[simp] theorem withTap_bus : (withTap v s).bus = s.bus := rfl
@[simp] theorem withScratch_bus : (withScratch f n i k s).bus = s.bus := rfl

theorem withTap_carriedOut : withTap v (carriedOut m x s) = carriedOut m x (withTap v s) := rfl
theorem withOrient_carriedOut : withOrient v (carriedOut m x s) = carriedOut m x (withOrient v s) := rfl
theorem withScratch_carriedOut :
    withScratch f n i k (carriedOut m x s) = carriedOut m x (withScratch f n i k s) := rfl

theorem saveAct_carriedOut :
    Action.saveAct.apply (carriedOut (m ++ [readPrim nack v]) x s) =
      carriedOut (m ++ [readPrim nack v]) x (withSavedAct v s) :=
  congrArg (fun w => withSavedAct w (carriedOut (m ++ [readPrim nack v]) x s)) (carriedOut_readByte m nack v x s)

theorem latchTap_carriedOut :
    Action.latchTap.apply (carriedOut (m ++ [readPrim nack v]) x s) =
      carriedOut (m ++ [readPrim nack v]) x (withTap v s) :=
  congrArg (fun w => withTap w (carriedOut (m ++ [readPrim nack v]) x s)) (carriedOut_readByte m nack v x s)

theorem latchOrient_carriedOut :
    Action.latchOrient.apply (carriedOut (m ++ [readPrim nack v]) x s) =
      carriedOut (m ++ [readPrim nack v]) x (withOrient v s) :=
  congrArg (fun w => withOrient w (carriedOut (m ++ [readPrim nack v]) x s)) (carriedOut_readByte m nack v x s)

theorem latchFifoStatus_carriedOut (n : Byte) :
    (Action.latchFifoStatus n).apply (carriedOut (m ++ [readPrim nack v]) x s) =
      carriedOut (m ++ [readPrim nack v]) x (withScratch (fifoCount v) (minCount (fifoCount v) n) 0 0 s) :=
  congrArg (fun w => withScratch (fifoCount w) (minCount (fifoCount w) n) 0 0 (carriedOut (m ++ [readPrim nack v]) x s))
    (carriedOut_readByte m nack v x s)

end

/-! ### The clearing reads of ENABLE_INT (R148) -/

/-- A clearing read, up to what it latches. -/
theorem run_clearingRead (reg : Byte) (latch : Action) (rest : List Micro) {s : State} (hlive : Live s) :
    run (expand s.params (clearingRead reg latch) ++ rest) s = run (closingSteps ++ rest)
      (latch.apply (carriedOut (readHead s.params reg ++ [readPrim true (registerByte s reg)]) .rdone s)) :=
  run_readByte reg (.act latch :: (closingSteps ++ rest)) hlive

theorem readSession_eq (p : Params) (reg v : Byte) :
    readSession p reg v = readHead p reg ++ [readPrim true v] ++ [Prim.busStop, .busClose] := rfl

/-- The clearing read of the tap status leaves its byte in `tap_status`. -/
theorem run_clearTap (reg : Byte) (rest : List Micro) {s : State} (hlive : Live s) :
    run (expand s.params (clearingRead reg .latchTap) ++ rest) s = run rest
      (carriedOut (readSession s.params reg (registerByte s reg)) .closed (withTap (registerByte s reg) s)) := by
  rw [run_clearingRead reg _ _ hlive, latchTap_carriedOut, readSession_eq]
  exact run_closing rest _ .rdone (s := withTap (registerByte s reg) s) hlive

/-- The clearing read of the orientation status leaves its byte in `orient_status`. -/
theorem run_clearOrient (reg : Byte) (rest : List Micro) {s : State} (hlive : Live s) :
    run (expand s.params (clearingRead reg .latchOrient) ++ rest) s = run rest
      (carriedOut (readSession s.params reg (registerByte s reg)) .closed (withOrient (registerByte s reg) s)) := by
  rw [run_clearingRead reg _ _ hlive, latchOrient_carriedOut, readSession_eq]
  exact run_closing rest _ .rdone (s := withOrient (registerByte s reg) s) hlive

/-! ### The discarding FIFO burst (R164, R168) -/

theorem readBurst_cons (v : Byte) (bs : List Byte) : readBurst (v :: bs) = readPrim bs.isEmpty v :: readBurst bs := by
  cases bs <;> rfl

/-- How a byte is acknowledged is nothing to the bytes that follow it. -/
theorem busBytes_succ (p : Params) (n : Nat) (b : Bus) (nack : Bool) :
    busBytes p (n + 1) b = b.supply p :: busBytes p n (b.after p (readPrim nack (b.supply p))) := by
  rw [after_read p b _ (b.supply p) nack false]; rfl

theorem busBytes_length (p : Params) (n : Nat) (b : Bus) : (busBytes p n b).length = n := by
  induction n generalizing b with
  | zero => rfl
  | succ n ih => exact congrArg Nat.succ (ih _)

theorem busBytes_isEmpty (p : Params) (n : Nat) (b : Bus) : (busBytes p n b).isEmpty = decide (n = 0) := by
  cases n <;> rfl

theorem readBurst_length (bs : List Byte) : (readBurst bs).length = bs.length := by
  induction bs with
  | nil => rfl
  | cons v bs ih => rw [readBurst_cons, List.length_cons, ih, List.length_cons]

/-- The loop counters move on, and nothing else changes. -/
theorem nextSampleByte_eq_withScratch (s : State) :
    nextSampleByte s = withScratch s.fifoF s.fifoN (if s.byteK = 5 then s.sampI + 1 else s.sampI)
      (if s.byteK = 5 then 0 else s.byteK + 1) s := by
  unfold nextSampleByte
  split <;> rfl

/-- The loop counters stand with `n` sample bytes of the burst left to read. -/
def BytesLeft (n : Nat) (s : State) : Prop :=
  s.byteK.toNat < 6 ∧ n + (6 * s.sampI.toNat + s.byteK.toNat) = 6 * s.fifoN.toNat

theorem lastSampleByte_of_bytesLeft {n : Nat} {s : State} (h : BytesLeft (n + 1) s) :
    s.lastSampleByte = decide (n = 0) := by
  obtain ⟨hk, hn⟩ := h
  have hpos : 1 ≤ s.fifoN.toNat := by omega
  have hsub : (s.fifoN - 1).toNat = s.fifoN.toNat - 1 := by bv_omega
  unfold State.lastSampleByte
  rw [Bool.eq_iff_iff, Bool.and_eq_true, beq_iff_eq, beq_iff_eq, decide_eq_true_iff, ← BitVec.toNat_inj,
    ← BitVec.toNat_inj, hsub]
  show _ ∧ s.byteK.toNat = 5 ↔ _
  omega

theorem bytesLeft_nextSampleByte {n : Nat} {s : State} (h : BytesLeft (n + 1) s) : BytesLeft n (nextSampleByte s) := by
  obtain ⟨hk, hn⟩ := h
  unfold BytesLeft nextSampleByte
  split
  · next hlast =>
    have hk5 : s.byteK.toNat = 5 := by rw [hlast]; rfl
    have hi : (s.sampI + 1).toNat = s.sampI.toNat + 1 := by bv_omega
    show 0 < 6 ∧ n + (6 * (s.sampI + 1).toNat + 0) = 6 * s.fifoN.toNat
    omega
  · next hmore =>
    have hne : s.byteK.toNat ≠ 5 := fun he => hmore (BitVec.eq_of_toNat_eq he)
    have hk1 : (s.byteK + 1).toNat = s.byteK.toNat + 1 := by bv_omega
    show (s.byteK + 1).toNat < 6 ∧ n + (6 * s.sampI.toNat + (s.byteK + 1).toNat) = 6 * s.fifoN.toNat
    omega

/-- One discarded sample byte: a read, not acknowledged if it is the last, and the loop counters moved on. -/
theorem readSample_discard (dest : Addr) {n : Nat} {s : State} (hleft : BytesLeft (n + 1) s) :
    ∃ x i k, readSample false dest s =
        carriedOut [readPrim (decide (n = 0)) (s.bus.supply s.params)] x (withScratch s.fifoF s.fifoN i k s) ∧
      BytesLeft n (withScratch s.fifoF s.fifoN i k s) := by
  have hread : readSample false dest s = nextSampleByte (completeRead s.lastSampleByte s) := rfl
  have hnext := bytesLeft_nextSampleByte hleft
  rw [nextSampleByte_eq_withScratch] at hnext
  rw [hread, completeRead_eq_carriedOut, lastSampleByte_of_bytesLeft hleft, nextSampleByte_eq_withScratch]
  exact ⟨_, _, _, rfl, hnext⟩

/-- The discarded sample bytes of a burst: every byte acknowledged but the last. -/
theorem readSamples_discard (dest : Addr) (n : Nat) {s : State} (hlive : Live s) (hleft : BytesLeft n s) :
    ∃ x i k, readSamples false dest n s =
      (carriedOut (readBurst (busBytes s.params n s.bus)) x (withScratch s.fifoF s.fifoN i k s), true) := by
  induction n generalizing s with
  | zero => exact ⟨s.sess, s.sampI, s.byteK, congrArg (·, true) (carriedOut_nil s).symm⟩
  | succ n ih =>
    have hstep : readSamples false dest (n + 1) s = readSamples false dest n (readSample false dest s) := by
      simp [readSamples, live_of_none hlive]
    obtain ⟨y, i, k, hsample, hnext⟩ := readSample_discard dest hleft
    obtain ⟨x, i', k', hrest⟩ := ih (s := readSample false dest s)
      (hsample ▸ live_carriedOut _ y (s := withScratch s.fifoF s.fifoN i k s) hlive) (hsample ▸ hnext)
    refine ⟨x, i', k', hstep.trans (hrest.trans (congrArg (·, true) ?_))⟩
    have hburst : readBurst (busBytes s.params (n + 1) s.bus) =
        readPrim (decide (n = 0)) (s.bus.supply s.params) :: readBurst (busBytes s.params n
          (s.bus.after s.params (readPrim (decide (n = 0)) (s.bus.supply s.params)))) := by
      rw [busBytes_succ s.params n s.bus (decide (n = 0)), readBurst_cons, busBytes_isEmpty]
    rw [hburst, hsample]
    exact carriedOut_carriedOut _ _ _ _ (withScratch s.fifoF s.fifoN i' k' s)

theorem sampleBytes_eq_zero (n : BitVec 6) : decide (sampleBytes n = 0) = (n == 0) := by
  rw [Bool.eq_iff_iff, decide_eq_true_iff, beq_iff_eq, ← BitVec.toNat_inj]
  show 6 * n.toNat = 0 ↔ n.toNat = 0
  omega

/-- The status byte of a FIFO burst, not acknowledged if no sample follows, and its sample bytes. -/
theorem readBurst_fifoBytes (p : Params) (n : Byte) (b : Bus) :
    readBurst (fifoBytes p n b) =
      readPrim (fifoSamples p n b == 0) (busByte p (readHead p p.regStatus) b) ::
        readBurst (busBytes p (sampleBytes (fifoSamples p n b)) (busAfter p (readHead p p.regStatus ++
          [readPrim (fifoSamples p n b == 0) (busByte p (readHead p p.regStatus) b)]) b)) := by
  have hbytes : fifoBytes p n b =
    busBytes p (sampleBytes (fifoSamples p n b) + 1) (busAfter p (readHead p p.regStatus) b) := by
    rw [Nat.add_comm]; rfl
  rw [hbytes, busBytes_succ p _ _ (fifoSamples p n b == 0), readBurst_cons, busBytes_isEmpty, sampleBytes_eq_zero,
    busAfter_append]
  rfl

/-- The primitives of a FIFO burst up to its status byte. -/
def statusHead (p : Params) (n : Byte) (b : Bus) : List Prim :=
  readHead p p.regStatus ++ [readPrim (fifoSamples p n b == 0) (busByte p (readHead p p.regStatus) b)]

theorem fifoSession_fifoBytes (p : Params) (n : Byte) (b : Bus) :
    fifoSession p (fifoBytes p n b) = statusHead p n b ++
      readBurst (busBytes p (sampleBytes (fifoSamples p n b)) (busAfter p (statusHead p n b) b)) ++
        [Prim.busStop, .busClose] := by
  rw [fifoSession, readBurst_fifoBytes, statusHead, List.append_assoc (readHead p p.regStatus) [_],
    List.singleton_append]

/-- The status byte of a FIFO burst sets the sample count, and the first sample byte is next. -/
theorem run_fifoStatus (n : Byte) (rest : List Micro) {s : State} (hlive : Live s) :
    ∃ x f, run (readHeadSteps s.params s.params.regStatus ++
        Micro.read (.fifoStatus n) :: .act (.latchFifoStatus n) :: rest) s =
      run rest (carriedOut (statusHead s.params n s.bus) x (withScratch f (fifoSamples s.params n s.bus) 0 0 s)) := by
  rw [run_readHead _ _ hlive, run_read _ _ _ _ hlive, run_act, latchFifoStatus_carriedOut]
  exact ⟨_, _, rfl⟩

/-- The sample bytes of a discarding FIFO burst. -/
theorem run_burst_discard (dest : Addr) (rest : List Micro) (m : List Prim) (x : Sess) (f c : BitVec 6) {s : State}
    (hlive : Live s) :
    ∃ y i k, run (.burst false dest :: rest) (carriedOut m x (withScratch f c 0 0 s)) = run rest
      (carriedOut (m ++ readBurst (busBytes s.params (sampleBytes c) (busAfter s.params m s.bus))) y
        (withScratch f c i k s)) := by
  obtain ⟨y, i, k, hsamples⟩ := readSamples_discard dest (sampleBytes c)
    (live_carriedOut m x (s := withScratch f c 0 0 s) hlive) ⟨Nat.zero_lt_succ 5, rfl⟩
  have hrun : run (.burst false dest :: rest) (carriedOut m x (withScratch f c 0 0 s)) = run rest
      (readSamples false dest (sampleBytes c) (carriedOut m x (withScratch f c 0 0 s))).1 :=
    if_pos (congrArg Prod.snd hsamples)
  refine ⟨y, i, k, hrun.trans (congrArg (run rest) ((congrArg Prod.fst hsamples).trans ?_))⟩
  exact carriedOut_carriedOut _ _ _ _ (withScratch f c i k s)

/-- A discarding FIFO burst changes the scratch registers and nothing else of the block. -/
theorem run_fifoBurst_discard (n : Byte) (dest : Addr) (rest : List Micro) {s : State} (hlive : Live s) :
    ∃ f c i k, run (expand s.params (fifoBurst s.params false dest n) ++ rest) s =
      run rest (carriedOut (fifoSession s.params (fifoBytes s.params n s.bus)) .closed (withScratch f c i k s)) := by
  have hsteps : expand s.params (fifoBurst s.params false dest n) ++ rest =
      readHeadSteps s.params s.params.regStatus ++ Micro.read (.fifoStatus n) :: .act (.latchFifoStatus n) ::
        .burst false dest :: (closingSteps ++ rest) := rfl
  obtain ⟨x, f, hstatus⟩ := run_fifoStatus n (.burst false dest :: (closingSteps ++ rest)) hlive
  obtain ⟨y, i, k, hsamples⟩ := run_burst_discard dest (closingSteps ++ rest) (statusHead s.params n s.bus) x f
    (fifoSamples s.params n s.bus) hlive
  refine ⟨f, fifoSamples s.params n s.bus, i, k, ?_⟩
  rw [hsteps, hstatus, hsamples, fifoSession_fifoBytes]
  exact run_closing rest _ y (s := withScratch f (fifoSamples s.params n s.bus) i k s) hlive

end Sys2Proof.Machine
end

section
/-! PROOFS. ENABLE_INT (R142): its first session, the whole command on a bus that completes everything, and the
registers it writes. -/

namespace Sys2Proof.Machine

/-! ### The first session -/

/-- The write groups of steps (b) to (e); the byte of step (f) is not among them. -/
def enableIntSetupTable (p : Params) (a b : Byte) : List (Byte × List Byte) := (enableIntTable p a b 0).take 4

/-- The micro-steps of ENABLE_INT from the `Reopen` after step (a) to the address of step (f). -/
def enableIntSetupSteps (p : Params) (a b : Byte) : List Micro :=
  expand p (.op .reopen :: (groupLines (enableIntSetupTable p a b) ++ [Line.op .reopen, .op (.addrWrite p.regAct)]))

/-- The primitives of ENABLE_INT from the `Reopen` after step (a) to the address of step (f). -/
def enableIntSetup (p : Params) (a b : Byte) : List Prim :=
  .busRestart :: (writeGroups p (enableIntSetupTable p a b) ++ [Prim.busRestart, .wr (devW p), .wr p.regAct])

theorem enableIntSetupSteps_quiet (p : Params) (a b : Byte) :
    (enableIntSetupSteps p a b).all Micro.quiet = true ∧
      issued (enableIntSetupSteps p a b) = enableIntSetup p a b := by
  obtain ⟨hquiet, hissued⟩ := groupLines_quiet p (enableIntSetupTable p a b)
  have hsteps : enableIntSetupSteps p a b = .issue .busRestart :: .act (.setSess .ready) ::
      (expand p (groupLines (enableIntSetupTable p a b)) ++
        [Micro.issue .busRestart, .act (.setSess .ready), .issue (.wr (devW p)), .issue (.wr p.regAct),
          .act (.setSess .waddr)]) :=
    congrArg (Micro.issue .busRestart :: .act (.setSess .ready) :: ·) (expand_append ..)
  rw [hsteps]
  constructor
  · simpa [Micro.quiet] using hquiet
  · simp [issued, issued_append, hissued, enableIntSetup]

/-- The first session's primitives around the two places where the activation byte passes. -/
theorem enableIntSession_parts (p : Params) (a b act : Byte) :
    enableIntSession p a b act = readHead p p.regAct ++ [readPrim true act] ++ enableIntSetup p a b ++ [Prim.wr act] ++
      [Prim.busStop, .busClose] := rfl

/-- The byte of `saved_act` is written. -/
theorem run_writeSaved (rest : List Micro) (m : List Prim) (x : Sess) {s : State} (hlive : Live s) :
    run (.writeSaved :: .act (.setSess .wburst) :: rest) (carriedOut m x s) =
      run rest (carriedOut (m ++ [Prim.wr s.savedAct]) .wburst s) := by
  have hbus : (carriedOut m x s).bus.live = true := live_of_none (live_carriedOut m x hlive)
  have hrun : run (.writeSaved :: .act (.setSess .wburst) :: rest) (carriedOut m x s) =
      run rest { completePrim (.wr s.savedAct) (carriedOut m x s) with sess := .wburst } := if_pos hbus
  rw [hrun, completePrim_eq_carriedOut, carriedOut_carriedOut]; rfl

/-- The micro-steps of ENABLE_INT's first session. -/
def enableIntSessionSteps (p : Params) (a b : Byte) : List Micro :=
  readHeadSteps p p.regAct ++ Micro.read .nack :: .act .saveAct :: (enableIntSetupSteps p a b ++
    Micro.writeSaved :: .act (.setSess .wburst) :: closingSteps)

/-- ENABLE_INT's first session saves the activation byte it reads and writes it back. -/
theorem run_enableIntSession (a b : Byte) (rest : List Micro) {s : State} (hlive : Live s) :
    run (enableIntSessionSteps s.params a b ++ rest) s =
      run rest (carriedOut (enableIntSession s.params a b (registerByte s s.params.regAct)) .closed
        (withSavedAct (registerByte s s.params.regAct) s)) := by
  generalize hact : registerByte s s.params.regAct = act
  obtain ⟨hquiet, hissued⟩ := enableIntSetupSteps_quiet s.params a b
  have hsteps : enableIntSessionSteps s.params a b ++ rest =
      readHeadSteps s.params s.params.regAct ++ Micro.read .nack :: .act .saveAct ::
        (enableIntSetupSteps s.params a b ++
          Micro.writeSaved :: .act (.setSess .wburst) :: (closingSteps ++ rest)) := by
    simp [enableIntSessionSteps]
  have hsetup := run_quiet_carriedOut hquiet (.writeSaved :: .act (.setSess .wburst) :: (closingSteps ++ rest))
    (readHead s.params s.params.regAct ++ [readPrim true act]) .rdone (withSavedAct act s) (lasts_of_none _ hlive)
  have hback := run_writeSaved (closingSteps ++ rest)
    (readHead s.params s.params.regAct ++ [readPrim true act] ++ enableIntSetup s.params a b) .waddr
    (s := withSavedAct act s) hlive
  have hclose := run_closing rest (readHead s.params s.params.regAct ++ [readPrim true act] ++
    enableIntSetup s.params a b ++ [Prim.wr act]) .wburst (s := withSavedAct act s) hlive
  rw [hsteps, run_readByte _ _ hlive, hact, run_act, saveAct_carriedOut, hsetup, hissued, enableIntSession_parts]
  exact hback.trans hclose

/-! ### The whole command -/

/-- The micro-steps that end ENABLE_INT. -/
def armingSteps : List Micro := [.act .arm, .act (.reply .zero)]

/-- The micro-steps of ENABLE_INT after its first session: the drain, the two clearing reads, the arming and the
response. -/
def clearingSteps (p : Params) : List Micro :=
  expand p (fifoBurst p false 0 p.fifoDepth) ++ (expand p (clearingRead p.regTapStatus .latchTap) ++
    (expand p (clearingRead p.regOrientStatus .latchOrient) ++ armingSteps))

theorem expand_enableIntLines (p : Params) (a b : Byte) :
    expand p (enableIntLines p a b) = enableIntSessionSteps p a b ++ clearingSteps p := by
  have hlines : enableIntLines p a b =
      ([Line.op .sessOpen, .op (.addrRead p.regAct), .op (.readData .nack), .act .saveAct] ++
        (Line.op .reopen :: (groupLines (enableIntSetupTable p a b) ++ [Line.op .reopen, .op (.addrWrite p.regAct)]) ++
          [Line.op .writeSavedAct, .op .sessClose])) ++
      (fifoBurst p false 0 p.fifoDepth ++ (clearingRead p.regTapStatus .latchTap ++
        (clearingRead p.regOrientStatus .latchOrient ++ [Line.act .arm, .act (.reply .zero)]))) := rfl
  rw [hlines]
  simp only [expand_append]
  rfl

/-- The session of the drain, from the bus that it begins with (R148). -/
def drainSession (p : Params) (bus : Bus) : List Prim := fifoSession p (fifoBytes p p.fifoDepth bus)

/-- The byte of the tap status, read after the drain. -/
def tapByte (p : Params) (bus : Bus) : Byte :=
  busByte p (readHead p p.regTapStatus) (busAfter p (drainSession p bus) bus)

/-- The byte of the orientation status, read after that. -/
def orientByte (p : Params) (bus : Bus) : Byte :=
  busByte p (readHead p p.regOrientStatus)
    (busAfter p (readSession p p.regTapStatus (tapByte p bus)) (busAfter p (drainSession p bus) bus))

/-- The primitives of ENABLE_INT that follow `m`, its first session, from the bus that this leaves. -/
def clearingPrims (p : Params) (m : List Prim) (bus : Bus) : List Prim :=
  m ++ drainSession p bus ++ readSession p p.regTapStatus (tapByte p bus) ++
    readSession p p.regOrientStatus (orientByte p bus)

/-- The byte of register `reg` that a read session returns after the primitives `m`. -/
theorem registerByte_carriedOut (m : List Prim) (x : Sess) (s : State) (reg : Byte) :
    registerByte (carriedOut m x s) reg = busByte s.params (readHead s.params reg) (busAfter s.params m s.bus) := rfl

theorem run_armingSteps (s : State) : run armingSteps s = respond 0 0 (armIrq s) := rfl

/-- After its first session, whose primitives are `m`, ENABLE_INT drains the FIFO, refreshes the two snapshots, arms
and responds. -/
theorem run_clearingSteps (m : List Prim) {s : State} {bus : Bus} (hbus : busAfter s.params m s.bus = bus)
    (hlive : Live s) :
    ∃ f c i k, run (clearingSteps s.params) (carriedOut m .closed s) =
      respond 0 0 (armIrq (carriedOut (clearingPrims s.params m bus) .closed
        (withOrient (orientByte s.params bus) (withTap (tapByte s.params bus) (withScratch f c i k s))))) := by
  generalize hp : s.params = p at hbus
  have hlive₁ : Live (carriedOut m .closed s) := live_carriedOut m .closed hlive
  obtain ⟨f, c, i, k, hdrain⟩ := run_fifoBurst_discard p.fifoDepth 0
    (expand p (clearingRead p.regTapStatus .latchTap) ++
      (expand p (clearingRead p.regOrientStatus .latchOrient) ++ armingSteps)) hlive₁
  have htap := run_clearTap p.regTapStatus
    (expand p (clearingRead p.regOrientStatus .latchOrient) ++ armingSteps)
    (s := carriedOut (m ++ drainSession p bus) .closed (withScratch f c i k s)) (live_carriedOut _ .closed hlive)
  have horient := run_clearOrient p.regOrientStatus armingSteps
    (s := carriedOut (m ++ drainSession p bus ++ readSession p p.regTapStatus (tapByte p bus)) .closed
      (withTap (tapByte p bus) (withScratch f c i k s))) (live_carriedOut _ .closed hlive)
  rw [withScratch_carriedOut, carriedOut_carriedOut, carriedOut_bus, carriedOut_params, hp, hbus] at hdrain
  rw [registerByte_carriedOut, withTap_carriedOut, carriedOut_carriedOut, busAfter_append, carriedOut_params,
    withScratch_params, withScratch_bus, hp, hbus] at htap
  rw [registerByte_carriedOut, withOrient_carriedOut, carriedOut_carriedOut, busAfter_append, busAfter_append,
    carriedOut_params, withTap_params, withScratch_params, withTap_bus, withScratch_bus, hp, hbus,
    run_armingSteps] at horient
  exact ⟨f, c, i, k, hdrain.trans (htap.trans horient)⟩

/-- The state that ENABLE_INT leaves after the primitives `l`, the three bytes `act`, `tap` and `orient` read. -/
def enableIntDone (a b : Byte) (l : List Prim) (act tap orient : Byte) (f c i : BitVec 6) (k : BitVec 3) (s : State) :
    State :=
  respond 0 0 (armIrq (carriedOut l .closed
    (withOrient orient (withTap tap (withScratch f c i k (withSavedAct act (accept (.enableInt a b) s)))))))

/-- On a bus that completes everything, ENABLE_INT carries out its four sessions, arms and responds. -/
theorem exec_enableInt_live (a b : Byte) {s : State} (hidle : Idle s) (hlive : Live s) :
    let first := enableIntSession s.params a b (registerByte s s.params.regAct)
    let bus := busAfter s.params first s.bus
    ∃ f c i k, exec (.enableInt a b) s = .next (enableIntDone a b (clearingPrims s.params first bus)
      (registerByte s s.params.regAct) (tapByte s.params bus) (orientByte s.params bus) f c i k s) := by
  intro first bus
  have hexec := command_idle (.enableInt a b) (enableIntLines s.params a b) hidle
  rw [expand_enableIntLines] at hexec
  have hfirst := run_enableIntSession a b (clearingSteps s.params) (s := accept (.enableInt a b) s) hlive
  obtain ⟨f, c, i, k, hclear⟩ := run_clearingSteps first (bus := bus)
    (s := withSavedAct (registerByte s s.params.regAct) (accept (.enableInt a b) s)) rfl hlive
  exact ⟨f, c, i, k, hexec.trans (congrArg Host.Outcome.next (hfirst.trans hclear))⟩

/-- The registers that ENABLE_INT leaves, one by one. -/
theorem enableIntDone_registers (a b : Byte) (l : List Prim) (act tap orient : Byte) (f c i : BitVec 6) (k : BitVec 3)
    (s : State) :
    let t := enableIntDone a b l act tap orient f c i k s
    t.trace = s.trace ++ primRecords l ++ [Record.arm, .resp 0 0] ∧
      t.savedAct = act ∧ t.tapStatus = tap ∧ t.tapWritten = true ∧ t.orientStatus = orient ∧
      t.orientWritten = true ∧ t.irqArmed = true ∧
      t.lineA = ⟨false, s.params.irqPriority, true⟩ ∧ t.lineB = ⟨false, s.params.irqPriority, true⟩ ∧
      t.fsm = s.fsm ∧ t.present = s.present ∧ SameConfig s t ∧ SameMemory s t ∧ SameInputs s t ∧ Responded t := by
  simp [enableIntDone, carriedOut, withOrient, withTap, withScratch, withSavedAct, IrqLine.arm, SameConfig, SameMemory,
    State.sampleByte, SameInputs, Responded]

/-- Settles O25: the state that the four sessions, the arming and the response leave, read off register by register. -/
theorem enableIntConfiguresClearsAndArms : Obligations.EnableIntConfiguresClearsAndArms := by
  intro a b s hidle hlive p act first bus1 drain bus2 tap bus3 orient
  obtain ⟨f, c, i, k, hexec⟩ := exec_enableInt_live a b hidle hlive
  exact ⟨_, hexec, enableIntDone_registers a b (clearingPrims p first bus1) act (tapByte p bus1) (orientByte p bus1)
    f c i k s⟩

/-! ### The registers written -/

theorem minCount_toNat_le (f : BitVec 6) (n : Byte) : (minCount f n).toNat ≤ n.toNat := by
  unfold minCount
  split
  · next h => exact h
  · rw [BitVec.toNat_setWidth]; exact Nat.mod_le _ _

theorem fifoSession_fifoBytes_length (p : Params) (n : Byte) (b : Bus) :
    (fifoSession p (fifoBytes p n b)).length = 9 + 6 * (fifoSamples p n b).toNat := by
  simp only [fifoSession, List.length_append, readBurst_length, fifoBytes, busBytes_length]
  show 6 + (1 + 6 * (fifoSamples p n b).toNat) + 2 = _
  omega

/-- Step (a) writes nothing, steps (b) to (f) write the bytes of their table. -/
theorem registerWrites_enableIntSession (p : Params) (a b act : Byte) (l : List Prim) :
    registerWrites p .idle (enableIntSession p a b act ++ l) =
      (enableIntTable p a b act).flatMap (fun g => burstWrites g.1 g.2) ++ registerWrites p .idle l := by
  have hparts : enableIntSession p a b act ++ l = readHead p p.regAct ++ Prim.rdn act :: .busRestart ::
      (writeGroups p (enableIntTable p a b act) ++ Prim.busStop :: .busClose :: l) := by
    simp [enableIntSession]
  rw [hparts, registerWrites_readHead]
  exact registerWrites_writeGroups p (enableIntTable p a b act) (.busClose :: l) (by simp [enableIntTable])

/-- ENABLE_INT's four sessions count 62 primitives and six for each sample drained. -/
theorem clearingPrims_length (p : Params) (a b act : Byte) (bus : Bus) :
    (clearingPrims p (enableIntSession p a b act) bus).length = 62 + 6 * (fifoSamples p p.fifoDepth bus).toNat := by
  have hfirst : (enableIntSession p a b act).length = 35 := rfl
  have hread : ∀ reg v, (readSession p reg v).length = 9 := fun _ _ => rfl
  simp only [clearingPrims, drainSession, List.length_append, hfirst, hread, fifoSession_fifoBytes_length]
  omega

/-- Of the four sessions only the first writes registers. -/
theorem registerWrites_clearingPrims (p : Params) (a b act : Byte) (bus : Bus) :
    registerWrites p .idle (clearingPrims p (enableIntSession p a b act) bus) =
      (enableIntTable p a b act).flatMap fun g => burstWrites g.1 g.2 := by
  have hlast := registerWrites_readSession p .idle p.regOrientStatus (orientByte p bus) []
  rw [List.append_nil] at hlast
  rw [clearingPrims, drainSession, List.append_assoc, List.append_assoc, registerWrites_enableIntSession,
    registerWrites_fifoSession, registerWrites_readSession, hlast]
  exact List.append_nil _

/-- Settles O26: the primitives of the four sessions counted, and the table of the first one read off them. -/
theorem enableIntWritesTheRegistersInOrder : Obligations.EnableIntWritesTheRegistersInOrder := by
  intro a b s hidle hlive p
  obtain ⟨f, c, i, k, hexec⟩ := exec_enableInt_live a b hidle hlive
  generalize registerByte s s.params.regAct = act at hexec
  generalize busAfter s.params (enableIntSession s.params a b act) s.bus = bus at hexec
  have hlength := clearingPrims_length p a b act bus
  obtain ⟨htrace, hsaved, -⟩ := enableIntDone_registers a b (clearingPrims p (enableIntSession p a b act) bus) act
    (tapByte p bus) (orientByte p bus) f c i k s
  refine ⟨_, _, _, hexec, htrace, hlength, minCount_toNat_le .., fun hdepth => ?_, ?_⟩
  · calc _ = _ := hlength
      _ ≤ 62 + 6 * p.fifoDepth.toNat := Nat.add_le_add_left (Nat.mul_le_mul_left 6 (minCount_toNat_le ..)) 62
      _ = 254 := by rw [hdepth]; rfl
  · rw [hsaved]
    exact registerWrites_clearingPrims p a b act bus

end Sys2Proof.Machine
end

section
/-! PROOFS. The state that a list of records leaves: what a command has done between its acceptance and its response
is told by the records it has appended (R4, R67, R68). -/

namespace Sys2Proof.Machine

/-! ### Primitives, responses and stores among records -/

/-- Sample memory after the stores among the records of a trace (R47, R68). -/
def memAfter : Memory → List Record → Memory
  | m, [] => m
  | m, .mw a v :: l => memAfter (memWrite m a.toNat v) l
  | m, .prim _ :: l => memAfter m l
  | m, .arm :: l => memAfter m l
  | m, .resp _ _ :: l => memAfter m l

theorem memAfter_append (m : Memory) (l k : List Record) : memAfter m (l ++ k) = memAfter (memAfter m l) k := by
  induction l generalizing m with
  | nil => rfl
  | cons r l ih => cases r <;> exact ih _

/-- A list of primitives stores nothing. -/
theorem memAfter_primRecords (m : Memory) (l : List Prim) : memAfter m (primRecords l) = m := by
  induction l with
  | nil => rfl
  | cons q l ih => exact ih

@[simp] theorem primsOf_append (l m : List Record) : primsOf (l ++ m) = primsOf l ++ primsOf m :=
  List.filterMap_append

@[simp] theorem primsOf_primRecords (l : List Prim) : primsOf (primRecords l) = l := by
  induction l with
  | nil => rfl
  | cons q l ih => exact congrArg (q :: ·) ih

@[simp] theorem primsOf_resp (c : Byte) (v : BitVec 32) : primsOf [.resp c v] = [] := rfl

@[simp] theorem responsesOf_append (l m : List Record) : responsesOf (l ++ m) = responsesOf l ++ responsesOf m :=
  List.filterMap_append

@[simp] theorem responsesOf_primRecords (l : List Prim) : responsesOf (primRecords l) = [] := by
  induction l with
  | nil => rfl
  | cons q l ih => exact ih

@[simp] theorem responsesOf_resp (c : Byte) (v : BitVec 32) : responsesOf [.resp c v] = [(c, v)] := rfl

/-! ### The state after a list of records -/

/-- `s` after the primitives and stores `l` of one command, with the session at `x`. -/
def recorded (l : List Record) (x : Sess) (s : State) : State :=
  { carriedOut (primsOf l) x s with
    trace := s.trace ++ l
    mem := memAfter s.mem l }

theorem carriedOut_eq_recorded (l : List Prim) (x : Sess) (s : State) :
    carriedOut l x s = recorded (primRecords l) x s := by
  rw [recorded, primsOf_primRecords, memAfter_primRecords]; rfl

theorem recorded_nil (s : State) : recorded [] s.sess s = s := by
  have h := carriedOut_eq_recorded [] s.sess s
  rw [carriedOut_nil] at h
  exact h.symm

theorem recorded_recorded (l m : List Record) (x y : Sess) (s : State) :
    recorded m y (recorded l x s) = recorded (l ++ m) y s := by
  cases hb : s.busy <;>
    simp [recorded, carriedOut, busAfter_append, memAfter_append, hb, Nat.add_assoc]

theorem withScratch_recorded (f n i : BitVec 6) (k : BitVec 3) (l : List Record) (x : Sess) (s : State) :
    withScratch f n i k (recorded l x s) = recorded l x (withScratch f n i k s) := rfl

theorem storeSample_eq_recorded (a : Addr) (v : Byte) (s : State) :
    storeSample a v s = recorded [.mw a v] s.sess s := by
  cases hb : s.busy <;> simp [storeSample, recorded, carriedOut, primsOf, memAfter, busAfter_nil, hb]

theorem live_recorded (l : List Record) (x : Sess) {s : State} (hlive : Live s) : Live (recorded l x s) :=
  busAfter_completes_none s.params (primsOf l) hlive

end Sys2Proof.Machine
end

section
/-! PROOFS. The FIFO burst, storing or discarding, on a bus that completes everything: the records of its sample bytes
and of the whole session (R164, R166, R167, R168). -/

namespace Sys2Proof.Machine

/-! ### The place of a wire byte in the buffer (R167) -/

/-- The address of wire byte `j` of a burst's samples. -/
def wireAddr (dest : Addr) (j : Nat) : Addr := dest + BitVec.ofNat 32 (byteOffset j)

theorem xor_one_lt_six {r : Nat} (h : r < 6) : r ^^^ 1 < 6 := by
  have hall : ∀ r < 6, r ^^^ 1 < 6 := by decide
  exact hall r h

theorem byteOffset_div (j : Nat) : byteOffset j / 6 = j / 6 := by
  have h := xor_one_lt_six (Nat.mod_lt j (by decide : 0 < 6))
  unfold byteOffset; omega

theorem byteOffset_mod (j : Nat) : byteOffset j % 6 = j % 6 ^^^ 1 := by
  have h := xor_one_lt_six (Nat.mod_lt j (by decide : 0 < 6))
  unfold byteOffset; omega

/-- Swapping the two bytes of each axis twice gives back the wire order. -/
theorem byteOffset_involutive : Function.Involutive byteOffset := by
  intro j
  have h : byteOffset (byteOffset j) = 6 * (byteOffset j / 6) + (byteOffset j % 6 ^^^ 1) := rfl
  rw [h, byteOffset_div, byteOffset_mod, Nat.xor_xor_cancel_right]
  exact Nat.div_add_mod j 6

/-- The bytes of `n` samples stay within the `6 * n` bytes of their buffer. -/
theorem byteOffset_lt {j n : Nat} (h : j < 6 * n) : byteOffset j < 6 * n := by
  have hdiv := byteOffset_div j
  omega

/-- The loop counters address the wire byte they count. -/
theorem sampleAddr_eq_wireAddr (dest : Addr) (i : BitVec 6) {k : BitVec 3} (hk : k.toNat < 6) :
    sampleAddr dest i k = wireAddr dest (6 * i.toNat + k.toNat) := by
  have hdiv : (6 * i.toNat + k.toNat) / 6 = i.toNat := by omega
  have hmod : (6 * i.toNat + k.toNat) % 6 = k.toNat := by omega
  rw [wireAddr, byteOffset, hdiv, hmod]
  rfl

/-! ### One sample byte -/

/-- The records of wire byte `j`: its read and, if the burst stores, its store. -/
def byteRecords (store : Bool) (dest : Addr) (j : Nat) (nack : Bool) (v : Byte) : List Record :=
  .prim (readPrim nack v) :: if store then [.mw (wireAddr dest j) v] else []

theorem sampleRecords_cons (store : Bool) (dest : Addr) (j : Nat) (v : Byte) (bs : List Byte) :
    sampleRecords store dest j (v :: bs) =
      byteRecords store dest j bs.isEmpty v ++ sampleRecords store dest (j + 1) bs := rfl

theorem primsOf_byteRecords (store : Bool) (dest : Addr) (j : Nat) (nack : Bool) (v : Byte) :
    primsOf (byteRecords store dest j nack v) = [readPrim nack v] := by
  cases store <;> rfl

/-- How many sample bytes of the burst have been read, by the loop counters. -/
def State.samplePos (s : State) : Nat := 6 * s.sampI.toNat + s.byteK.toNat

/-- A read that is stored where the burst stores leaves what its records tell. -/
theorem readSample_eq_recorded (store : Bool) (dest : Addr) {s : State} (hk : s.byteK.toNat < 6) :
    ∃ x, readSample store dest s = nextSampleByte
      (recorded (byteRecords store dest s.samplePos s.lastSampleByte (s.bus.supply s.params)) x s) := by
  have hread := completeRead_eq_carriedOut s.lastSampleByte s
  rw [carriedOut_eq_recorded] at hread
  cases store with
  | false => exact ⟨_, congrArg nextSampleByte hread⟩
  | true =>
    have hstore : readSample true dest s = nextSampleByte (storeSample (sampleAddr dest s.sampI s.byteK)
      (completeRead s.lastSampleByte s).readByte (completeRead s.lastSampleByte s)) := rfl
    rw [hstore, completeRead_readByte, sampleAddr_eq_wireAddr dest s.sampI hk, storeSample_eq_recorded, hread,
      recorded_recorded]
    exact ⟨_, rfl⟩

/-- The records leave the loop counters as they are. -/
theorem nextSampleByte_recorded (l : List Record) (x : Sess) (s : State) :
    nextSampleByte (recorded l x s) = recorded l x (nextSampleByte s) := by
  rw [nextSampleByte_eq_withScratch, nextSampleByte_eq_withScratch s]; rfl

/-- One sample byte: its records, not acknowledged if it is the last, and the loop counters moved on by one. -/
theorem readSample_recorded (store : Bool) (dest : Addr) {n : Nat} {s : State} (hleft : BytesLeft (n + 1) s) :
    ∃ x i k, readSample store dest s =
        recorded (byteRecords store dest s.samplePos (decide (n = 0)) (s.bus.supply s.params)) x
          (withScratch s.fifoF s.fifoN i k s) ∧
      BytesLeft n (withScratch s.fifoF s.fifoN i k s) ∧
      (withScratch s.fifoF s.fifoN i k s).samplePos = s.samplePos + 1 := by
  obtain ⟨x, hsample⟩ := readSample_eq_recorded store dest hleft.1
  have hnext := bytesLeft_nextSampleByte hleft
  rw [nextSampleByte_eq_withScratch] at hnext
  rw [lastSampleByte_of_bytesLeft hleft, nextSampleByte_recorded, nextSampleByte_eq_withScratch] at hsample
  refine ⟨x, _, _, hsample, hnext, ?_⟩
  have hbefore : n + 1 + s.samplePos = 6 * s.fifoN.toNat := hleft.2
  have hafter : n + State.samplePos _ = 6 * s.fifoN.toNat := hnext.2
  omega

/-! ### The sample bytes of a burst -/

/-- The sample bytes of a burst leave what their records tell. -/
theorem readSamples_recorded (store : Bool) (dest : Addr) (n : Nat) {s : State} (hlive : Live s)
    (hleft : BytesLeft n s) :
    ∃ x i k, readSamples store dest n s =
      (recorded (sampleRecords store dest s.samplePos (busBytes s.params n s.bus)) x
        (withScratch s.fifoF s.fifoN i k s), true) := by
  induction n generalizing s with
  | zero => exact ⟨s.sess, s.sampI, s.byteK, congrArg (·, true) (recorded_nil s).symm⟩
  | succ n ih =>
    have hstep : readSamples store dest (n + 1) s = readSamples store dest n (readSample store dest s) := by
      simp [readSamples, live_of_none hlive]
    obtain ⟨y, i, k, hsample, hnext, hpos⟩ := readSample_recorded store dest hleft
    obtain ⟨x, i', k', hrest⟩ := ih (s := readSample store dest s)
      (hsample ▸ live_recorded _ y (s := withScratch s.fifoF s.fifoN i k s) hlive) (hsample ▸ hnext)
    refine ⟨x, i', k', hstep.trans (hrest.trans (congrArg (·, true) ?_))⟩
    generalize hv : s.bus.supply s.params = v at hsample
    have hbytes : busBytes s.params (n + 1) s.bus =
        v :: busBytes s.params n (s.bus.after s.params (readPrim (decide (n = 0)) v)) := by
      rw [busBytes_succ s.params n s.bus (decide (n = 0)), hv]
    have hbus : (readSample store dest s).bus = s.bus.after s.params (readPrim (decide (n = 0)) v) := by
      rw [hsample]
      exact congrArg (busAfter s.params · s.bus) (primsOf_byteRecords ..)
    have hplace : (readSample store dest s).samplePos = s.samplePos + 1 := by rw [hsample]; exact hpos
    have hparams : (readSample store dest s).params = s.params := by rw [hsample]; rfl
    rw [hbytes, sampleRecords_cons, busBytes_isEmpty, hbus, hplace, hparams, hsample]
    exact recorded_recorded _ _ _ _ (withScratch s.fifoF s.fifoN i' k' s)

/-- A burst reads all its sample bytes, from the first on. -/
theorem run_burst_recorded (store : Bool) (dest : Addr) (rest : List Micro) (m : List Record) (x : Sess)
    (f c : BitVec 6) {s : State} (hlive : Live s) :
    ∃ y i k, run (.burst store dest :: rest) (recorded m x (withScratch f c 0 0 s)) = run rest
      (recorded (m ++ sampleRecords store dest 0
        (busBytes s.params (sampleBytes c) (busAfter s.params (primsOf m) s.bus))) y (withScratch f c i k s)) := by
  obtain ⟨y, i, k, hsamples⟩ := readSamples_recorded store dest (sampleBytes c)
    (live_recorded m x (s := withScratch f c 0 0 s) hlive) ⟨Nat.zero_lt_succ 5, rfl⟩
  have hrun : run (.burst store dest :: rest) (recorded m x (withScratch f c 0 0 s)) = run rest
      (readSamples store dest (sampleBytes c) (recorded m x (withScratch f c 0 0 s))).1 :=
    if_pos (congrArg Prod.snd hsamples)
  refine ⟨y, i, k, hrun.trans (congrArg (run rest) ((congrArg Prod.fst hsamples).trans ?_))⟩
  exact recorded_recorded _ _ _ _ (withScratch f c i k s)

/-! ### The session of a burst -/

/-- The records of a FIFO burst's session from the bus that it begins with (R164). -/
def burstRecords (p : Params) (store : Bool) (dest : Addr) (n : Byte) (b : Bus) : List Record :=
  primRecords (statusHead p n b) ++ sampleRecords store dest 0 (fifoBytes p n b).tail ++
    primRecords [.busStop, .busClose]

/-- After the status byte come the bytes of the samples. -/
theorem fifoBytes_tail (p : Params) (n : Byte) (b : Bus) :
    (fifoBytes p n b).tail =
      busBytes p (sampleBytes (fifoSamples p n b)) (busAfter p (statusHead p n b) b) := by
  have hbytes : fifoBytes p n b =
      busBytes p (sampleBytes (fifoSamples p n b) + 1) (busAfter p (readHead p p.regStatus) b) := by
    rw [Nat.add_comm]; rfl
  rw [hbytes, busBytes_succ p _ _ (fifoSamples p n b == 0), statusHead, busAfter_append]
  rfl

theorem fifoBytes_length (p : Params) (n : Byte) (b : Bus) :
    (fifoBytes p n b).length = 1 + 6 * (fifoSamples p n b).toNat := busBytes_length ..

/-- The status byte of a FIFO burst sets both counts, and the first sample byte is next. -/
theorem run_fifoStatus_recorded (n : Byte) (rest : List Micro) {s : State} (hlive : Live s) :
    ∃ x, run (readHeadSteps s.params s.params.regStatus ++
        Micro.read (.fifoStatus n) :: .act (.latchFifoStatus n) :: rest) s =
      run rest (recorded (primRecords (statusHead s.params n s.bus)) x
        (withScratch (fifoCount (registerByte s s.params.regStatus)) (fifoSamples s.params n s.bus) 0 0 s)) := by
  rw [run_readHead _ _ hlive, run_read _ _ _ _ hlive, run_act, latchFifoStatus_carriedOut, carriedOut_eq_recorded]
  exact ⟨_, rfl⟩

/-- A FIFO burst leaves what the records of its session tell, and both counts. -/
theorem run_fifoBurst (store : Bool) (n : Byte) (dest : Addr) (rest : List Micro) {s : State} (hlive : Live s) :
    ∃ i k, run (expand s.params (fifoBurst s.params store dest n) ++ rest) s =
      run rest (recorded (burstRecords s.params store dest n s.bus) .closed
        (withScratch (fifoCount (registerByte s s.params.regStatus)) (fifoSamples s.params n s.bus) i k s)) := by
  have hsteps : expand s.params (fifoBurst s.params store dest n) ++ rest =
      readHeadSteps s.params s.params.regStatus ++ Micro.read (.fifoStatus n) :: .act (.latchFifoStatus n) ::
        .burst store dest :: (closingSteps ++ rest) := rfl
  obtain ⟨x, hstatus⟩ := run_fifoStatus_recorded n (.burst store dest :: (closingSteps ++ rest)) hlive
  generalize fifoCount (registerByte s s.params.regStatus) = f at hstatus ⊢
  obtain ⟨y, i, k, hsamples⟩ := run_burst_recorded store dest (closingSteps ++ rest)
    (primRecords (statusHead s.params n s.bus)) x f (fifoSamples s.params n s.bus) hlive
  rw [primsOf_primRecords, ← fifoBytes_tail] at hsamples
  have hclose := run_quiet closingSteps_quiet.1 rest
    (recorded
      (primRecords (statusHead s.params n s.bus) ++ sampleRecords store dest 0 (fifoBytes s.params n s.bus).tail) y
      (withScratch f (fifoSamples s.params n s.bus) i k s)) (lasts_of_none _ (live_recorded _ y hlive))
  rw [carriedOut_eq_recorded, recorded_recorded] at hclose
  exact ⟨i, k, hsteps ▸ hstatus.trans (hsamples.trans hclose)⟩

end Sys2Proof.Machine
end

section
/-! PROOFS. READ_FIFO on a bus that completes everything (R162): what it transfers, what it stores, and the discard
path beside the storing one. -/

namespace Sys2Proof.Machine

/-! ### The whole command -/

/-- The state that READ_FIFO with maxEntries at least 1 leaves, the loop counters at `i` and `k`. -/
def readFifoDone (store : Bool) (a : Byte) (dest : Addr) (i : BitVec 6) (k : BitVec 3) (s : State) : State :=
  respond 0 ((fifoSamples s.params a s.bus).setWidth 32)
    (recorded (burstRecords s.params store dest a s.bus) .closed
      (withScratch (fifoCount (registerByte s s.params.regStatus)) (fifoSamples s.params a s.bus) i k
        (accept (.readFifo store a dest) s)))

/-- The response is the sample count. -/
theorem run_replyFifoN (s : State) :
    run [.act (.reply .fifoN)] s = respond 0 (s.fifoN.setWidth 32) s := rfl

/-- With maxEntries at least 1, an idle block runs the pseudocode of the burst and responds. -/
theorem exec_readFifo (store : Bool) {a : Byte} (dest : Addr) {s : State} (ha : a ≠ 0) (hidle : Idle s) :
    exec (.readFifo store a dest) s = .next (run (expand s.params (fifoBurst s.params store dest a) ++
      [.act (.reply .fifoN)]) (accept (.readFifo store a dest) s)) := by
  have hlines : readFifoLines s.params store a dest =
      fifoBurst s.params store dest a ++ [Line.act (.reply .fifoN)] := if_neg ha
  calc exec (.readFifo store a dest) s = command (.readFifo store a dest) (readFifoLines s.params store a dest) s := rfl
    _ = _ := by rw [command_idle _ _ hidle, hlines, expand_append]; rfl

/-- With maxEntries at least 1, READ_FIFO carries out the session of its burst and responds the count. -/
theorem exec_readFifo_live (store : Bool) {a : Byte} (dest : Addr) {s : State} (ha : a ≠ 0) (hidle : Idle s)
    (hlive : Live s) : ∃ i k, exec (.readFifo store a dest) s = .next (readFifoDone store a dest i k s) := by
  obtain ⟨i, k, hburst⟩ := run_fifoBurst store a dest [.act (.reply .fifoN)]
    (s := accept (.readFifo store a dest) s) hlive
  rw [run_replyFifoN] at hburst
  exact ⟨i, k, (exec_readFifo store dest ha hidle).trans (congrArg Host.Outcome.next hburst)⟩

/-- With maxEntries 0, READ_FIFO responds 0 and does nothing else (R165). -/
theorem exec_readFifo_zero (store : Bool) (dest : Addr) {s : State} (hidle : Idle s) :
    exec (.readFifo store 0 dest) s = .next (respond 0 0 (accept (.readFifo store 0 dest) s)) :=
  command_idle (.readFifo store 0 dest) [.act (.reply .zero)] hidle

theorem readFifoDone_trace (store : Bool) (a : Byte) (dest : Addr) (i : BitVec 6) (k : BitVec 3) (s : State) :
    (readFifoDone store a dest i k s).trace = s.trace ++ (burstRecords s.params store dest a s.bus ++
      [.resp 0 ((fifoSamples s.params a s.bus).setWidth 32)]) := List.append_assoc ..

theorem readFifoDone_sampleByte (store : Bool) (a : Byte) (dest : Addr) (i : BitVec 6) (k : BitVec 3) (s : State)
    (x : Addr) : (readFifoDone store a dest i k s).sampleByte x =
      memRead (memAfter s.mem (burstRecords s.params store dest a s.bus)) x.toNat := rfl

theorem readFifoDone_bus (store : Bool) (a : Byte) (dest : Addr) (i : BitVec 6) (k : BitVec 3) (s : State) :
    (readFifoDone store a dest i k s).bus =
      busAfter s.params (primsOf (burstRecords s.params store dest a s.bus)) s.bus := rfl

/-- Of the registers READ_FIFO leaves the two counts, and those it does not write. -/
theorem readFifoDone_registers (store : Bool) (a : Byte) (dest : Addr) (i : BitVec 6) (k : BitVec 3) (s : State) :
    let t := readFifoDone store a dest i k s
    t.fifoF = fifoCount (registerByte s s.params.regStatus) ∧ t.fifoN = fifoSamples s.params a s.bus ∧
      t.fsm = s.fsm ∧ t.present = s.present ∧ t.savedAct = s.savedAct ∧ SameConfig s t ∧ SameSnapshots s t ∧
      SameArming s t ∧ SameInputs s t ∧ Responded t := by
  simp [readFifoDone, recorded, carriedOut, withScratch, SameConfig, SameSnapshots, SameArming, SameInputs, Responded]

/-! ### The burst that is transferred -/

theorem fifoCount_toNat (v : Byte) : (fifoCount v).toNat = (v &&& 0x3F).toNat := by
  rw [fifoCount, BitVec.toNat_setWidth, BitVec.toNat_and]
  exact (Nat.and_two_pow_sub_one_eq_mod v.toNat 6).symm

theorem minCount_toNat (f : BitVec 6) (n : Byte) : (minCount f n).toNat = min f.toNat n.toNat := by
  have hf := f.isLt
  unfold minCount
  split
  · omega
  · rw [BitVec.toNat_setWidth]; omega

/-- Settles O32: the state that READ_FIFO leaves, read off register by register, and the counts of R164. -/
theorem readFifoTransfersTheBurst : Obligations.ReadFifoTransfersTheBurst := by
  intro store a dest s ha hidle hlive p bytes n
  obtain ⟨i, k, hexec⟩ := exec_readFifo_live store dest ha hidle hlive
  obtain ⟨hcount, hregisters⟩ := readFifoDone_registers store a dest i k s
  refine ⟨_, hexec, ?_, fifoBytes_length .., ?_, ?_, hregisters⟩
  · rw [readFifoDone_trace, burstRecords, statusHead]
    simp [primRecords, p, bytes, n, registerByte]
  · exact (minCount_toNat ..).trans (congrArg (min · a.toNat) (fifoCount_toNat _))
  · rw [hcount]; exact fifoCount_toNat _

/-! ### The bytes that are stored -/

/-- Different wire bytes of one transfer go to different addresses. -/
theorem wireAddr_ne {dest : Addr} {n j j' : Nat} (hn : 6 * n ≤ 2 ^ 32) (hj : j < 6 * n) (hj' : j' < 6 * n)
    (hne : j ≠ j') : wireAddr dest j ≠ wireAddr dest j' := by
  intro heq
  have hoffset := congrArg BitVec.toNat (add_left_cancel heq)
  have hlt := byteOffset_lt hj
  have hlt' := byteOffset_lt hj'
  rw [BitVec.toNat_ofNat, BitVec.toNat_ofNat, Nat.mod_eq_of_lt (by omega), Nat.mod_eq_of_lt (by omega)] at hoffset
  exact hne (byteOffset_involutive.injective hoffset)

/-- An address at or beyond the buffer is that of no wire byte. -/
theorem ne_wireAddr_of_beyond {dest x : Addr} {n j : Nat} (hj : j < 6 * n) (hx : 6 * n ≤ (x - dest).toNat) :
    x ≠ wireAddr dest j := by
  intro heq
  have hlt := byteOffset_lt hj
  have hsub : x - dest = BitVec.ofNat 32 (byteOffset j) := by rw [heq]; exact add_sub_cancel_left ..
  rw [hsub, BitVec.toNat_ofNat, Nat.mod_eq_of_lt (by omega)] at hx
  omega

theorem memAfter_sampleRecords_cons (m : Memory) (dest : Addr) (j : Nat) (v : Byte) (bs : List Byte) :
    memAfter m (sampleRecords true dest j (v :: bs)) =
      memAfter (memWrite m (wireAddr dest j).toNat v) (sampleRecords true dest (j + 1) bs) := rfl

/-- An address of none of the wire bytes reads as before. -/
theorem memRead_sampleRecords_other {dest x : Addr} {j : Nat} {bs : List Byte} (m : Memory)
    (hx : ∀ i < bs.length, x ≠ wireAddr dest (j + i)) :
    memRead (memAfter m (sampleRecords true dest j bs)) x.toNat = memRead m x.toNat := by
  induction bs generalizing j m with
  | nil => rfl
  | cons v bs ih =>
    have hfirst : x.toNat ≠ (wireAddr dest j).toNat := fun h => hx 0 (Nat.zero_lt_succ _) (BitVec.eq_of_toNat_eq h)
    have hrest : ∀ i < bs.length, x ≠ wireAddr dest (j + 1 + i) := by
      intro i hi
      rw [Nat.add_assoc, Nat.add_comm 1]
      exact hx (i + 1) (Nat.succ_lt_succ hi)
    rw [memAfter_sampleRecords_cons, ih _ hrest, memRead_memWrite_other m v hfirst]

/-- Each wire byte reads back at its own address: no later one is stored over it. -/
theorem memRead_sampleRecords_wireAddr {dest : Addr} {n j i : Nat} {bs : List Byte} (m : Memory)
    (hn : 6 * n ≤ 2 ^ 32) (hfit : j + bs.length ≤ 6 * n) (hi : i < bs.length) :
    memRead (memAfter m (sampleRecords true dest j bs)) (wireAddr dest (j + i)).toNat = bs[i]? := by
  induction bs generalizing j i m with
  | nil => cases hi
  | cons v bs ih =>
    rw [List.length_cons] at hfit hi
    rw [memAfter_sampleRecords_cons]
    cases i with
    | zero =>
      have hlater : ∀ i < bs.length, wireAddr dest (j + 0) ≠ wireAddr dest (j + 1 + i) :=
        fun i hi => wireAddr_ne hn (by omega) (by omega) (by omega)
      rw [memRead_sampleRecords_other _ hlater]
      exact memRead_memWrite_same ..
    | succ i =>
      rw [← Nat.add_assoc, Nat.add_right_comm]
      exact ih _ (by omega) (by omega)

/-- Of a burst's session only the samples' records store. -/
theorem memAfter_burstRecords (m : Memory) (p : Params) (store : Bool) (dest : Addr) (n : Byte) (b : Bus) :
    memAfter m (burstRecords p store dest n b) = memAfter m (sampleRecords store dest 0 (fifoBytes p n b).tail) := by
  rw [burstRecords, memAfter_append, memAfter_append, memAfter_primRecords, memAfter_primRecords]

theorem fifoBytes_tail_length (p : Params) (n : Byte) (b : Bus) :
    (fifoBytes p n b).tail.length = 6 * (fifoSamples p n b).toNat := by
  rw [List.length_tail, fifoBytes_length]; omega

/-- Settles O33: each wire byte is the last one stored at its address, and no other address is stored to. -/
theorem readFifoStoresOnlyTheBuffer : Obligations.ReadFifoStoresOnlyTheBuffer := by
  intro a dest s ha hidle hlive n
  obtain ⟨i, k, hexec⟩ := exec_readFifo_live true dest ha hidle hlive
  have hlength : (fifoBytes s.params a s.bus).tail.length = 6 * n.toNat := fifoBytes_tail_length ..
  have hn : 6 * n.toNat ≤ 2 ^ 32 := by have := n.isLt; omega
  refine ⟨_, hexec, fun j hj => ?_, fun x hx => ?_⟩ <;> rw [readFifoDone_sampleByte, memAfter_burstRecords]
  · have hread := memRead_sampleRecords_wireAddr (dest := dest) (j := 0) s.mem hn (by omega) (hlength ▸ hj)
    rw [Nat.zero_add, List.getElem?_tail, Nat.add_comm] at hread
    exact hread
  · exact memRead_sampleRecords_other s.mem fun j hj => ne_wireAddr_of_beyond (by omega) hx

/-! ### The discard path -/

/-- Storing or not, the sample bytes are read by the same primitives. -/
theorem primsOf_sampleRecords (store : Bool) (dest : Addr) (j : Nat) (bs : List Byte) :
    primsOf (sampleRecords store dest j bs) = readBurst bs := by
  induction bs generalizing j with
  | nil => rfl
  | cons v bs ih =>
    rw [sampleRecords_cons, primsOf_append, primsOf_byteRecords, ih, readBurst_cons]; rfl

theorem responsesOf_sampleRecords (store : Bool) (dest : Addr) (j : Nat) (bs : List Byte) :
    responsesOf (sampleRecords store dest j bs) = [] := by
  induction bs generalizing j with
  | nil => rfl
  | cons v bs ih =>
    have hbyte : responsesOf (byteRecords store dest j bs.isEmpty v) = [] := by cases store <;> rfl
    rw [sampleRecords_cons, responsesOf_append, hbyte, ih]; rfl

/-- Discarded sample bytes are records of primitives only. -/
theorem sampleRecords_discard (dest : Addr) (j : Nat) (bs : List Byte) :
    sampleRecords false dest j bs = primRecords (readBurst bs) := by
  induction bs generalizing j with
  | nil => rfl
  | cons v bs ih => rw [sampleRecords_cons, ih, readBurst_cons]; rfl

theorem fifoSession_eq_statusHead (p : Params) (n : Byte) (b : Bus) :
    fifoSession p (fifoBytes p n b) =
      statusHead p n b ++ readBurst (fifoBytes p n b).tail ++ [.busStop, .busClose] := by
  rw [fifoSession_fifoBytes, fifoBytes_tail]

theorem primsOf_burstRecords (p : Params) (store : Bool) (dest : Addr) (n : Byte) (b : Bus) :
    primsOf (burstRecords p store dest n b) = fifoSession p (fifoBytes p n b) := by
  rw [burstRecords, fifoSession_eq_statusHead, primsOf_append, primsOf_append, primsOf_primRecords, primsOf_primRecords,
    primsOf_sampleRecords]

theorem responsesOf_burstRecords (p : Params) (store : Bool) (dest : Addr) (n : Byte) (b : Bus) :
    responsesOf (burstRecords p store dest n b) = [] := by
  simp only [burstRecords, responsesOf_append, responsesOf_primRecords, responsesOf_sampleRecords, List.append_nil]

theorem burstRecords_discard (p : Params) (dest : Addr) (n : Byte) (b : Bus) :
    burstRecords p false dest n b = primRecords (fifoSession p (fifoBytes p n b)) := by
  rw [burstRecords, sampleRecords_discard, fifoSession_eq_statusHead, primRecords_append, primRecords_append]

/-- Settles O35: the records of both bursts hold the same primitives, and the discarding one holds nothing else. -/
theorem discardDrainsLikeStoring : Obligations.DiscardDrainsLikeStoring := by
  intro a dest dest' s hidle hlive
  by_cases ha : a = 0
  · subst ha
    exact ⟨_, _, [.resp 0 0], [.resp 0 0], 0, exec_readFifo_zero true dest hidle,
      exec_readFifo_zero false dest' hidle, rfl, rfl, rfl, rfl, rfl, rfl, fun _ => rfl⟩
  · obtain ⟨i, k, hstoring⟩ := exec_readFifo_live true dest ha hidle hlive
    obtain ⟨i', k', hdiscarding⟩ := exec_readFifo_live false dest' ha hidle hlive
    refine ⟨_, _, _, _, (fifoSamples s.params a s.bus).setWidth 32, hstoring, hdiscarding,
      readFifoDone_trace .., readFifoDone_trace .., ?_, ?_, ?_, ?_, ?_⟩
    · rw [primsOf_append, primsOf_append, primsOf_burstRecords, primsOf_burstRecords]
    · rw [responsesOf_append, responsesOf_burstRecords]; rfl
    · rw [primsOf_append, primsOf_burstRecords, burstRecords_discard, primsOf_resp, List.append_nil]
    · rw [readFifoDone_bus, readFifoDone_bus, primsOf_burstRecords, primsOf_burstRecords]
    · intro x
      rw [readFifoDone_sampleByte, burstRecords_discard, memAfter_primRecords]; rfl

end Sys2Proof.Machine
end

section
/-! PROOFS. STARTUP with an unrecognised rate or range code (R193): the code that it falls back to, and what is left of
the operand that was passed. -/

namespace Sys2Proof.Machine

/-! ### The codes that are fallen back to -/

theorem effRate_of_unrecognised {a : Byte} (ha : 7 < a) : effRate a = effRate 3 := by
  have hnot : ¬ a ≤ 7 := BitVec.not_le.mpr ha
  rw [effRate, if_neg hnot]; rfl

theorem rangeEnc_of_unrecognised {b : Byte} (hb : 2 < b) : rangeEnc b = rangeEnc 1 := by
  have hnot : ¬ b ≤ 2 := BitVec.not_le.mpr hb
  rw [rangeEnc, if_neg hnot]; rfl

/-! ### Two STARTUPs with the same effective rate, or with the same range encoding -/

section

variable {a a' b b' : Byte}

/-- The registers of the device see the rate code by its effective rate alone (R74, R123). -/
theorem startupTable_eq_of_effRate (p : Params) (h : effRate a = effRate a') :
    startupTable p a b = startupTable p a' b := by
  simp only [startupTable, h]

/-- The registers of the device see the range code by its encoding alone (R75, R123). -/
theorem startupTable_eq_of_rangeEnc (p : Params) (h : rangeEnc b = rangeEnc b') :
    startupTable p a b = startupTable p a b' := by
  simp only [startupTable, dataCfg, h]

/-- Of the block's registers only `cur_cmd` tells two rate codes of one effective rate apart (R131, R132). -/
theorem startupRegisters_eq_of_effRate (k : Nat) (s : State) (h : effRate a = effRate a') :
    startupRegisters a b k s = { startupRegisters a' b k s with curCmd := encodeCommand (.startup a b) } := by
  simp only [startupRegisters, accept, h]

end

/-! ### The state that STARTUP leaves -/

/-- The state that STARTUP leaves on a bus that completes everything. -/
def startupDone (a b : Byte) (s : State) : State :=
  respond 0 0 (carriedOut (writeSession s.params (startupTable s.params a b)) .closed (startupRegisters a b 53 s))

theorem startupDone_trace (a b : Byte) (s : State) : (startupDone a b s).trace =
    s.trace ++ primRecords (writeSession s.params (startupTable s.params a b)) ++ [.resp 0 0] := rfl

theorem startupDone_rate (a b : Byte) (s : State) : (startupDone a b s).rate = (effRate a).setWidth 8 := rfl

theorem startupDone_freqChz (a b : Byte) (s : State) : (startupDone a b s).freqChz = freqOf (effRate a) := rfl

/-- The range is cached as passed (R131). -/
theorem startupDone_range (a b : Byte) (s : State) : (startupDone a b s).range = b := rfl

/-- STARTUP responds 0 whatever its operands are. -/
theorem startupDone_getLast (a b : Byte) (s : State) : (startupDone a b s).trace.getLast? = some (.resp 0 0) := by
  rw [startupDone_trace]; exact List.getLast?_concat

theorem startupDone_curCmd (a b : Byte) (s : State) :
    (startupDone a b s).curCmd = encodeCommand (.startup a b) := rfl

/-- Neither the primitives nor the response of a command read `cur_cmd`. -/
theorem respond_carriedOut_curCmd (c : Byte) (v : BitVec 32) (l : List Prim) (x : Sess) (w : CmdWord) (s : State) :
    respond c v (carriedOut l x { s with curCmd := w }) = { respond c v (carriedOut l x s) with curCmd := w } := rfl

theorem startupDone_eq_of_effRate {a a' : Byte} (b : Byte) (s : State) (h : effRate a = effRate a') :
    startupDone a b s = { startupDone a' b s with curCmd := (startupDone a b s).curCmd } := by
  rw [startupDone_curCmd, startupDone, startupTable_eq_of_effRate s.params h, startupRegisters_eq_of_effRate 53 s h,
    respond_carriedOut_curCmd, startupDone]

theorem startupDone_trace_eq_of_rangeEnc (a : Byte) {b b' : Byte} (s : State) (h : rangeEnc b = rangeEnc b') :
    (startupDone a b s).trace = (startupDone a b' s).trace := by
  rw [startupDone_trace, startupDone_trace, startupTable_eq_of_rangeEnc s.params h]

/-! ### The statement -/

/-- Settles O22: an unrecognised rate code has the effective rate of code 3, which is all that is cached of it; an
unrecognised range code has the encoding of code 1, which is all that the device is told of it. -/
theorem unrecognisedCodesFallBack : Obligations.UnrecognisedCodesFallBack := by
  intro a b s hidle hlive
  have hdone : ∀ x y, exec (.startup x y) s = .next (startupDone x y s) :=
    fun x y => exec_startup_live x y hidle hlive
  constructor
  · intro ha
    have hrate := effRate_of_unrecognised ha
    refine ⟨_, _, hdone a b, hdone 3 b, startupDone_eq_of_effRate b s hrate, ?_, ?_, startupDone_getLast a b s⟩
    · rw [startupDone_rate, hrate]; rfl
    · rw [startupDone_freqChz, hrate]; rfl
  · intro hb
    have hrange := rangeEnc_of_unrecognised hb
    exact ⟨_, _, hdone a b, hdone a 1, startupDone_trace_eq_of_rangeEnc a s hrange, startupDone_range a b s,
      startupDone_range a 1 s, startupDone_getLast a b s⟩

end Sys2Proof.Machine
end

section
/-! PROOFS. Encoder and decoder: each undoes the other (R60 to R63, R67), and the decoder accepts exactly the words that
select a row of the opcode table (R63, R64). -/

namespace Sys2Proof

/-! ### A command word from its fields -/

/-- A word whose reserved fields are 0 is the command word of its other fields (R60, R63). -/
theorem commandWord_of_fields {w : CmdWord} {op : BitVec 4} {st : Bool} {a b : Byte} {d : Addr}
    (hrsv : fieldRsvHi w = 0 ∧ fieldRsvLo w = 0) (hop : fieldOp w = op) (hst : fieldStore w = BitVec.ofBool st)
    (ha : fieldA w = a) (hb : fieldB w = b) (hd : fieldDest w = d) : commandWord op st a b d = w := by
  obtain ⟨hhi, hlo⟩ := hrsv
  have hw := command_fields w
  rw [hop, hst, ha, hb, hd, hhi, hlo] at hw
  exact hw.symm

/-- Two words with the same seven fields are the same (R60). -/
theorem command_ext {w v : CmdWord} (hop : fieldOp w = fieldOp v) (hhi : fieldRsvHi w = fieldRsvHi v)
    (hst : fieldStore w = fieldStore v) (ha : fieldA w = fieldA v) (hb : fieldB w = fieldB v)
    (hlo : fieldRsvLo w = fieldRsvLo v) (hd : fieldDest w = fieldDest v) : w = v := by
  rw [command_fields w, command_fields v, hop, hhi, hst, ha, hb, hlo, hd]

theorem store_eq_ofBool (x : BitVec 1) : x = BitVec.ofBool (x == 1) := by
  revert x; decide

/-- The eleven operation codes are all that are not reserved (R61). -/
theorem op_eq_getFreq {op : BitVec 4} (hreserved : ¬ (op = 0 ∨ 0xC#4 ≤ op))
    (hother : op ≠ 0x1 ∧ op ≠ 0x2 ∧ op ≠ 0x3 ∧ op ≠ 0x4 ∧ op ≠ 0x5 ∧ op ≠ 0x6 ∧ op ≠ 0x7 ∧ op ≠ 0x8 ∧ op ≠ 0x9 ∧
      op ≠ 0xA) : op = 0xB := by
  revert op; decide

/-! ### What the tests of unused fields accept -/

section

variable {w : CmdWord} {i j : Instr} {op : BitVec 4}

theorem guarded_eq_ok {P : Prop} [Decidable P] {e : DecodeError} :
    (if P then Except.ok i else Except.error e) = .ok j ↔ P ∧ i = j := by
  split <;> simp [*]

theorem noOperands_eq_ok : noOperands w i = .ok j ↔
    (fieldStore w = 0 ∧ fieldA w = 0 ∧ fieldB w = 0 ∧ fieldDest w = 0) ∧ i = j := guarded_eq_ok

theorem operandsAB_eq_ok : operandsAB w i = .ok j ↔ (fieldStore w = 0 ∧ fieldDest w = 0) ∧ i = j := guarded_eq_ok

theorem operandsFifo_eq_ok : operandsFifo w i = .ok j ↔ fieldB w = 0 ∧ i = j := guarded_eq_ok

theorem plainKind_eq_ok {w : PrimWord} : plainKind w i = .ok j ↔ fieldData w = 0 ∧ i = j := guarded_eq_ok

theorem encode_of_noOperands (hrsv : fieldRsvHi w = 0 ∧ fieldRsvLo w = 0) (hop : fieldOp w = op)
    (hcode : encode i = .command (commandWord op false 0 0 0)) (h : noOperands w i = .ok j) :
    encode j = .command w := by
  obtain ⟨⟨hst, ha, hb, hd⟩, rfl⟩ := noOperands_eq_ok.1 h
  exact hcode.trans (congrArg ChannelWord.command (commandWord_of_fields (st := false) hrsv hop hst ha hb hd))

theorem encode_of_operandsAB (hrsv : fieldRsvHi w = 0 ∧ fieldRsvLo w = 0) (hop : fieldOp w = op)
    (hcode : encode i = .command (commandWord op false (fieldA w) (fieldB w) 0)) (h : operandsAB w i = .ok j) :
    encode j = .command w := by
  obtain ⟨⟨hst, hd⟩, rfl⟩ := operandsAB_eq_ok.1 h
  exact hcode.trans (congrArg ChannelWord.command (commandWord_of_fields (st := false) hrsv hop hst rfl rfl hd))

theorem encode_of_plainKind {w : PrimWord} {k : BitVec 4} (hkind : fieldKind w = k)
    (hcode : encode i = .primitive (primitiveWord k 0)) (h : plainKind w i = .ok j) : encode j = .primitive w := by
  obtain ⟨hdata, rfl⟩ := plainKind_eq_ok.1 h
  have hw := primitive_fields w
  rw [hkind, hdata] at hw
  rw [hcode, hw]; rfl

end

/-! ### The two directions -/

/-! The decoder's branch for each operation code or kind that comes with operands. -/

theorem decodeCommand_startup (a b : Byte) :
    decodeCommand (commandWord 0x2 false a b 0) = .ok (.startup a b) := by
  have hbranch : decodeCommand (commandWord 0x2 false a b 0) =
      operandsAB (commandWord 0x2 false a b 0) (.startup a b) := by
    rw [decodeCommand, fieldOp_commandWord, fieldRsvHi_commandWord, fieldRsvLo_commandWord, fieldA_commandWord,
      fieldB_commandWord]
    rfl
  exact hbranch.trans (operandsAB_eq_ok.2 ⟨⟨fieldStore_commandWord .., fieldDest_commandWord ..⟩, rfl⟩)

theorem decodeCommand_enableInt (a b : Byte) :
    decodeCommand (commandWord 0x4 false a b 0) = .ok (.enableInt a b) := by
  have hbranch : decodeCommand (commandWord 0x4 false a b 0) =
      operandsAB (commandWord 0x4 false a b 0) (.enableInt a b) := by
    rw [decodeCommand, fieldOp_commandWord, fieldRsvHi_commandWord, fieldRsvLo_commandWord, fieldA_commandWord,
      fieldB_commandWord]
    rfl
  exact hbranch.trans (operandsAB_eq_ok.2 ⟨⟨fieldStore_commandWord .., fieldDest_commandWord ..⟩, rfl⟩)

theorem decodeCommand_readFifo (st : Bool) (a : Byte) (d : Addr) :
    decodeCommand (commandWord 0x6 st a 0 d) = .ok (.readFifo st a d) := by
  have hst : (BitVec.ofBool st == 1) = st := by cases st <;> rfl
  have hbranch : decodeCommand (commandWord 0x6 st a 0 d) =
      operandsFifo (commandWord 0x6 st a 0 d) (.readFifo st a d) := by
    rw [decodeCommand, fieldOp_commandWord, fieldRsvHi_commandWord, fieldRsvLo_commandWord, fieldStore_commandWord, hst,
      fieldA_commandWord, fieldDest_commandWord]
    rfl
  exact hbranch.trans (operandsFifo_eq_ok.2 ⟨fieldB_commandWord .., rfl⟩)

theorem decodePrimitive_primitiveWord (d : Byte) :
    decodePrimitive (primitiveWord 6 d) = .ok (.wr d) ∧ decodePrimitive (primitiveWord 7 d) = .ok (.rda d) ∧
      decodePrimitive (primitiveWord 8 d) = .ok (.rdn d) := by
  rw [decodePrimitive, decodePrimitive, decodePrimitive, fieldKind_primitiveWord, fieldKind_primitiveWord,
    fieldKind_primitiveWord, fieldData_primitiveWord, fieldData_primitiveWord, fieldData_primitiveWord]
  exact ⟨rfl, rfl, rfl⟩

/-- The decoder takes an encoded instruction back to itself. -/
theorem decode_encode (i : Instr) : decode (encode i) = .ok i := by
  cases i with
  | startup a b => exact decodeCommand_startup a b
  | enableInt a b => exact decodeCommand_enableInt a b
  | readFifo st a d => exact decodeCommand_readFifo st a d
  | wr d => exact (decodePrimitive_primitiveWord d).1
  | rda d => exact (decodePrimitive_primitiveWord d).2.1
  | rdn d => exact (decodePrimitive_primitiveWord d).2.2
  | _ => rfl

theorem encode_of_decodeCommand {w : CmdWord} {i : Instr} (h : decodeCommand w = .ok i) : encode i = .command w := by
  unfold decodeCommand at h
  obtain ⟨-, h⟩ | ⟨hreserved, h⟩ := ite_eq_iff.1 h
  · cases h
  obtain ⟨-, h⟩ | ⟨hfields, h⟩ := ite_eq_iff.1 h
  · cases h
  have hrsv : fieldRsvHi w = 0 ∧ fieldRsvLo w = 0 := by simpa using hfields
  obtain ⟨hop, h⟩ | ⟨h1, h⟩ := ite_eq_iff.1 h
  · exact encode_of_noOperands hrsv hop rfl h
  obtain ⟨hop, h⟩ | ⟨h2, h⟩ := ite_eq_iff.1 h
  · exact encode_of_operandsAB hrsv hop rfl h
  obtain ⟨hop, h⟩ | ⟨h3, h⟩ := ite_eq_iff.1 h
  · exact encode_of_noOperands hrsv hop rfl h
  obtain ⟨hop, h⟩ | ⟨h4, h⟩ := ite_eq_iff.1 h
  · exact encode_of_operandsAB hrsv hop rfl h
  obtain ⟨hop, h⟩ | ⟨h5, h⟩ := ite_eq_iff.1 h
  · exact encode_of_noOperands hrsv hop rfl h
  obtain ⟨hop, h⟩ | ⟨h6, h⟩ := ite_eq_iff.1 h
  · obtain ⟨hb, rfl⟩ := operandsFifo_eq_ok.1 h
    exact congrArg ChannelWord.command (commandWord_of_fields hrsv hop (store_eq_ofBool _) rfl hb rfl)
  obtain ⟨hop, h⟩ | ⟨h7, h⟩ := ite_eq_iff.1 h
  · exact encode_of_noOperands hrsv hop rfl h
  obtain ⟨hop, h⟩ | ⟨h8, h⟩ := ite_eq_iff.1 h
  · exact encode_of_noOperands hrsv hop rfl h
  obtain ⟨hop, h⟩ | ⟨h9, h⟩ := ite_eq_iff.1 h
  · exact encode_of_noOperands hrsv hop rfl h
  obtain ⟨hop, h⟩ | ⟨hA, h⟩ := ite_eq_iff.1 h
  · exact encode_of_noOperands hrsv hop rfl h
  · exact encode_of_noOperands hrsv (op_eq_getFreq hreserved ⟨h1, h2, h3, h4, h5, h6, h7, h8, h9, hA⟩) rfl h

theorem encode_of_decodePrimitive {w : PrimWord} {i : Instr} (h : decodePrimitive w = .ok i) :
    encode i = .primitive w := by
  have hword : ∀ k, fieldKind w = k → primitiveWord k (fieldData w) = w := by
    rintro k rfl
    exact (primitive_fields w).symm
  unfold decodePrimitive at h
  obtain ⟨hkind, h⟩ | ⟨-, h⟩ := ite_eq_iff.1 h
  · exact encode_of_plainKind hkind rfl h
  obtain ⟨hkind, h⟩ | ⟨-, h⟩ := ite_eq_iff.1 h
  · exact encode_of_plainKind hkind rfl h
  obtain ⟨hkind, h⟩ | ⟨-, h⟩ := ite_eq_iff.1 h
  · exact encode_of_plainKind hkind rfl h
  obtain ⟨hkind, h⟩ | ⟨-, h⟩ := ite_eq_iff.1 h
  · exact encode_of_plainKind hkind rfl h
  obtain ⟨hkind, h⟩ | ⟨-, h⟩ := ite_eq_iff.1 h
  · exact encode_of_plainKind hkind rfl h
  obtain ⟨hkind, h⟩ | ⟨-, h⟩ := ite_eq_iff.1 h
  · cases h; exact congrArg ChannelWord.primitive (hword _ hkind)
  obtain ⟨hkind, h⟩ | ⟨-, h⟩ := ite_eq_iff.1 h
  · cases h; exact congrArg ChannelWord.primitive (hword _ hkind)
  obtain ⟨hkind, h⟩ | ⟨-, h⟩ := ite_eq_iff.1 h
  · cases h; exact congrArg ChannelWord.primitive (hword _ hkind)
  · cases h

/-- Settles O1: the fields of an encoded word are those it was made of, so the decoder takes its own branch. -/
theorem decodeInvertsEncode : Obligations.DecodeInvertsEncode := fun i _ => decode_encode i

/-- Settles O2: in the branch that the decoder took every field not copied to the instruction was tested to be 0. -/
theorem encodeInvertsDecode : Obligations.EncodeInvertsDecode := by
  intro w i h
  cases w with
  | command w => exact encode_of_decodeCommand h
  | primitive w => exact encode_of_decodePrimitive h

/-! ### The opcode table -/

section

variable (w m : CmdWord)

theorem fieldOp_and : fieldOp (w &&& m) = fieldOp w &&& fieldOp m := BitVec.extractLsb'_and
theorem fieldRsvHi_and : fieldRsvHi (w &&& m) = fieldRsvHi w &&& fieldRsvHi m := BitVec.extractLsb'_and
theorem fieldStore_and : fieldStore (w &&& m) = fieldStore w &&& fieldStore m := BitVec.extractLsb'_and
theorem fieldA_and : fieldA (w &&& m) = fieldA w &&& fieldA m := BitVec.extractLsb'_and
theorem fieldB_and : fieldB (w &&& m) = fieldB w &&& fieldB m := BitVec.extractLsb'_and
theorem fieldRsvLo_and : fieldRsvLo (w &&& m) = fieldRsvLo w &&& fieldRsvLo m := BitVec.extractLsb'_and
theorem fieldDest_and : fieldDest (w &&& m) = fieldDest w &&& fieldDest m := BitVec.extractLsb'_and

end

/-- A word agrees with `v` under a mask when each of its fields does. -/
theorem and_eq_iff_fields {w m v : CmdWord} : w &&& m = v ↔
    fieldOp w &&& fieldOp m = fieldOp v ∧ fieldRsvHi w &&& fieldRsvHi m = fieldRsvHi v ∧
      fieldStore w &&& fieldStore m = fieldStore v ∧ fieldA w &&& fieldA m = fieldA v ∧
      fieldB w &&& fieldB m = fieldB v ∧ fieldRsvLo w &&& fieldRsvLo m = fieldRsvLo v ∧
      fieldDest w &&& fieldDest m = fieldDest v := by
  rw [← fieldOp_and, ← fieldRsvHi_and, ← fieldStore_and, ← fieldA_and, ← fieldB_and, ← fieldRsvLo_and, ← fieldDest_and]
  constructor
  · rintro rfl
    exact ⟨rfl, rfl, rfl, rfl, rfl, rfl, rfl⟩
  · rintro ⟨hop, hhi, hst, ha, hb, hlo, hd⟩
    exact command_ext hop hhi hst ha hb hlo hd

theorem eq_of_and_allOnes {n : Nat} {x m y : BitVec n} (h : x &&& m = y) (hm : m = BitVec.allOnes n) : x = y := by
  rw [← h, hm, BitVec.and_allOnes]

/-- The mask of STARTUP and ENABLE_INT leaves out the fields `a` and `b`. -/
theorem and_maskAB_eq_iff {w : CmdWord} {op : BitVec 4} :
    w &&& 0xFF0000FFFFFFFFFF = commandWord op false 0 0 0 ↔ ∃ a b, commandWord op false a b 0 = w := by
  rw [and_eq_iff_fields]
  constructor
  · rintro ⟨hop, hhi, hst, -, -, hlo, hd⟩
    rw [fieldOp_commandWord] at hop
    rw [fieldRsvHi_commandWord] at hhi
    rw [fieldStore_commandWord] at hst
    rw [fieldRsvLo_commandWord] at hlo
    rw [fieldDest_commandWord] at hd
    exact ⟨fieldA w, fieldB w, commandWord_of_fields
      ⟨eq_of_and_allOnes hhi rfl, eq_of_and_allOnes hlo rfl⟩ (eq_of_and_allOnes hop rfl) (eq_of_and_allOnes hst rfl)
      rfl rfl (eq_of_and_allOnes hd rfl)⟩
  · rintro ⟨a, b, rfl⟩
    simp only [fieldOp_commandWord, fieldRsvHi_commandWord, fieldStore_commandWord, fieldA_commandWord,
      fieldB_commandWord, fieldRsvLo_commandWord, fieldDest_commandWord]
    exact ⟨BitVec.and_allOnes, rfl, rfl, BitVec.and_zero, BitVec.and_zero, rfl, rfl⟩

/-- The mask of READ_FIFO leaves out the fields `store`, `a` and `dest`. -/
theorem and_maskFifo_eq_iff {w : CmdWord} {op : BitVec 4} :
    w &&& 0xFE00FFFF00000000 = commandWord op false 0 0 0 ↔ ∃ st a d, commandWord op st a 0 d = w := by
  rw [and_eq_iff_fields]
  constructor
  · rintro ⟨hop, hhi, -, -, hb, hlo, -⟩
    rw [fieldOp_commandWord] at hop
    rw [fieldRsvHi_commandWord] at hhi
    rw [fieldB_commandWord] at hb
    rw [fieldRsvLo_commandWord] at hlo
    exact ⟨fieldStore w == 1, fieldA w, fieldDest w, commandWord_of_fields
      ⟨eq_of_and_allOnes hhi rfl, eq_of_and_allOnes hlo rfl⟩ (eq_of_and_allOnes hop rfl) (store_eq_ofBool _) rfl
      (eq_of_and_allOnes hb rfl) rfl⟩
  · rintro ⟨st, a, d, rfl⟩
    simp only [fieldOp_commandWord, fieldRsvHi_commandWord, fieldStore_commandWord, fieldA_commandWord,
      fieldB_commandWord, fieldRsvLo_commandWord, fieldDest_commandWord]
    exact ⟨BitVec.and_allOnes, rfl, BitVec.and_zero, BitVec.and_zero, rfl, rfl, BitVec.and_zero⟩

/-- The mask of the other rows leaves nothing out. -/
theorem and_maskFull_eq_iff {w v : CmdWord} : w &&& 0xFFFFFFFFFFFFFFFF = v ↔ v = w :=
  ⟨fun h => (eq_of_and_allOnes h rfl).symm, fun h => h ▸ BitVec.and_allOnes⟩

/-- A word selects a row of the opcode table exactly when it is the encoding of a command (R63). -/
theorem selected_iff_encoded (w : CmdWord) :
    commandRows.any (fun r => r.selectedBy w) = true ↔ ∃ i, encode i = .command w := by
  constructor
  · intro h
    obtain ⟨r, hr, hw⟩ := List.any_eq_true.1 h
    have hw := eq_of_beq hw
    simp only [commandRows, List.mem_cons, List.not_mem_nil, or_false] at hr
    rcases hr with rfl | rfl | rfl | rfl | rfl | rfl | rfl | rfl | rfl | rfl | rfl
    · exact ⟨.verifyId, congrArg _ (and_maskFull_eq_iff.1 hw)⟩
    · obtain ⟨a, b, hw⟩ := and_maskAB_eq_iff (op := 2).1 hw
      exact ⟨.startup a b, congrArg _ hw⟩
    · exact ⟨.standby, congrArg _ (and_maskFull_eq_iff.1 hw)⟩
    · obtain ⟨a, b, hw⟩ := and_maskAB_eq_iff (op := 4).1 hw
      exact ⟨.enableInt a b, congrArg _ hw⟩
    · exact ⟨.readFifoLen, congrArg _ (and_maskFull_eq_iff.1 hw)⟩
    · obtain ⟨st, a, d, hw⟩ := and_maskFifo_eq_iff (op := 6).1 hw
      exact ⟨.readFifo st a d, congrArg _ hw⟩
    · exact ⟨.readTap, congrArg _ (and_maskFull_eq_iff.1 hw)⟩
    · exact ⟨.readOrient, congrArg _ (and_maskFull_eq_iff.1 hw)⟩
    · exact ⟨.readIntSrc, congrArg _ (and_maskFull_eq_iff.1 hw)⟩
    · exact ⟨.getRate, congrArg _ (and_maskFull_eq_iff.1 hw)⟩
    · exact ⟨.getFreq, congrArg _ (and_maskFull_eq_iff.1 hw)⟩
  · rintro ⟨i, hi⟩
    cases i with
    | startup a b =>
      injection hi with hi
      have hrow : CommandRow.selectedBy ⟨"STARTUP", 0xFF0000FFFFFFFFFF, 0x2000000000000000⟩ w = true :=
        beq_iff_eq.2 (and_maskAB_eq_iff (op := 2).2 ⟨a, b, hi⟩)
      exact List.any_eq_true.2 ⟨_, by simp [commandRows], hrow⟩
    | enableInt a b =>
      injection hi with hi
      have hrow : CommandRow.selectedBy ⟨"ENABLE_INT", 0xFF0000FFFFFFFFFF, 0x4000000000000000⟩ w = true :=
        beq_iff_eq.2 (and_maskAB_eq_iff (op := 4).2 ⟨a, b, hi⟩)
      exact List.any_eq_true.2 ⟨_, by simp [commandRows], hrow⟩
    | readFifo st a d =>
      injection hi with hi
      have hrow : CommandRow.selectedBy ⟨"READ_FIFO", 0xFE00FFFF00000000, 0x6000000000000000⟩ w = true :=
        beq_iff_eq.2 (and_maskFifo_eq_iff (op := 6).2 ⟨st, a, d, hi⟩)
      exact List.any_eq_true.2 ⟨_, by simp [commandRows], hrow⟩
    | verifyId | standby | readFifoLen | readTap | readOrient | readIntSrc | getRate | getFreq =>
      injection hi with hi
      subst hi
      rfl
    | _ => cases hi

/-- Settles O3: to decode and to select a row are both to be the encoding of a command. -/
theorem decoderAcceptsTheSelectedWords : Obligations.DecoderAcceptsTheSelectedWords := by
  intro w
  rw [selected_iff_encoded]
  constructor
  · rintro ⟨i, hi⟩
    exact ⟨i, encode_of_decodeCommand hi⟩
  · rintro ⟨i, hi⟩
    have hdecode := decode_encode i
    rw [hi] at hdecode
    exact ⟨i, hdecode⟩

/-- Settles O4: each word is the encoding of the instruction beside it, and is decoded back. -/
theorem specWordsDecode : Obligations.SpecWordsDecode :=
  ⟨decode_encode .verifyId, decode_encode (.startup 200 7), decode_encode (.enableInt 0x09 0x08),
    decode_encode (.readFifo true 3 0x1000), decode_encode (.readFifo false 3 0x12345678), decode_encode .getFreq,
    decode_encode (.wr 0x38), decode_encode (.rda 0x05), decode_encode (.rdn 0x1A)⟩

end Sys2Proof
end

section
/-! PROOFS. The step around a command: the reset input, records on the primitive channel, the one exception, waiting,
and a block that is busy (R91, R190, R195, R210 to R212, R222). -/

namespace Sys2Proof.Machine

/-! ### The primitives as instructions (R90 to R94) -/

theorem issuePrim_live (q : Prim) {s : State} (h : s.bus.live = true) : issuePrim q s = completePrim q s := if_pos h

theorem issuePrim_dead (q : Prim) {s : State} (h : s.bus.live = false) : issuePrim q s = s := by
  simp [issuePrim, h]

/-- An instruction of format P issues one primitive. -/
theorem exec_of_not_isCommand {i : Instr} (hi : i.isCommand = false) (s : State) :
    ∃ q, exec i s = .next (issuePrim q s) := by
  cases i with
  | busOpen | busStart | busRestart | busStop | busClose | wr | rda | rdn => exact ⟨_, rfl⟩
  | _ => cases hi

/-- A primitive other than a read returns nothing to the block. -/
theorem completePrim_of_not_isRead {q : Prim} (hq : q.isRead = false) (s : State) :
    completePrim q s = { s with
      trace := s.trace ++ [.prim q]
      upc := if s.busy then s.upc + 1 else s.upc
      bus := s.bus.after s.params q } := by
  cases q with
  | rda | rdn => cases hq
  | _ => rfl

/-- Settles O12: each of the six issues its own primitive, which is not a read. -/
theorem plainPrimitivesComplete : Obligations.PlainPrimitivesComplete := by
  intro s hlive
  refine ⟨?_, rfl, rfl, ?_⟩
  · have hissue := fun (q : Prim) (hq : q.isRead = false) =>
      (issuePrim_live q hlive).trans (completePrim_of_not_isRead hq s)
    rintro i q (⟨rfl, rfl⟩ | ⟨rfl, rfl⟩ | ⟨rfl, rfl⟩ | ⟨rfl, rfl⟩ | ⟨rfl, rfl⟩ | ⟨d, rfl, rfl⟩)
    · exact congrArg Host.Outcome.next (hissue .busOpen rfl)
    · exact congrArg Host.Outcome.next (hissue .busStart rfl)
    · exact congrArg Host.Outcome.next (hissue .busRestart rfl)
    · exact congrArg Host.Outcome.next (hissue .busStop rfl)
    · exact congrArg Host.Outcome.next (hissue .busClose rfl)
    · exact congrArg Host.Outcome.next (hissue (.wr d) rfl)
  · rintro q (hq | ⟨d, rfl⟩)
    · simp only [List.mem_cons, List.not_mem_nil, or_false] at hq
      rcases hq with rfl | rfl | rfl <;> rfl
    · rfl

/-- Settles O13: both reads complete as a primitive does, with the byte of their record. -/
theorem readPrimitivesReturnTheByte : Obligations.ReadPrimitivesReturnTheByte := fun d _ hlive =>
  ⟨congrArg Host.Outcome.next (issuePrim_live (.rda d) hlive), congrArg Host.Outcome.next (issuePrim_live (.rdn d) hlive)⟩

/-- Settles O14: a primitive issued to a bus that does not complete it leaves the state as it is. -/
theorem primitiveWaitsForTheBus : Obligations.PrimitiveWaitsForTheBus := by
  intro i s hi hdead
  obtain ⟨q, hexec⟩ := exec_of_not_isCommand hi s
  rw [hexec, issuePrim_dead q hdead]

/-! ### Records on the primitive channel -/

/-- Out of reset and idle, the block serves the primitive channel first. -/
theorem fetch_of_primIn {s : State} {w : PrimWord} {i : Instr} (hreset : s.resetPin = false) (hidle : s.busy = false)
    (hoffer : s.primIn = some w) (hdecode : decode (.primitive w) = .ok i) :
    fetch s = if s.bus.live then .run i { s with primIn := none } else .wait := by
  simp [fetch, hreset, hidle, hoffer, hdecode]

/-- Settles O6: the record is fetched when the bus is live, and the block waits when it is not. -/
theorem stepRunsThePrimitive : Obligations.StepRunsThePrimitive := by
  intro s w i hreset hidle hoffer hdecode
  have hfetch := fetch_of_primIn hreset hidle hoffer hdecode
  constructor <;> intro hbus
  · exact step_eq_exec_of_fetch (hfetch.trans (if_pos hbus))
  · simp [step, hfetch, hbus]

/-- A record that decodes has a kind of 1..8, and data only on the three kinds with data (R67). -/
theorem kind_of_decodePrimitive {w : PrimWord} {i : Instr} (h : decodePrimitive w = .ok i) :
    1 ≤ fieldKind w ∧ fieldKind w ≤ 8 ∧ (fieldKind w ≤ 5 → fieldData w = 0) := by
  have hw := encode_of_decodePrimitive h
  have hfields : ∀ k d, primitiveWord k d = w → fieldKind w = k ∧ fieldData w = d := by
    rintro k d rfl
    exact ⟨fieldKind_primitiveWord k d, fieldData_primitiveWord k d⟩
  cases i with
  | busOpen | busStart | busRestart | busStop | busClose =>
    injection hw with hw
    obtain ⟨hk, hd⟩ := hfields _ _ hw
    rw [hk, hd]
    decide
  | wr d | rda d | rdn d =>
    injection hw with hw
    obtain ⟨hk, -⟩ := hfields _ _ hw
    rw [hk]
    exact ⟨by decide, by decide, fun h5 => absurd h5 (by decide)⟩
  | _ => cases hw

/-- Settles O7: a record that is never produced does not decode, and an empty block has nothing to fetch. -/
theorem stepRefusesReservedRecordsAndWaits : Obligations.StepRefusesReservedRecordsAndWaits := by
  intro s hreset hidle
  constructor
  · intro w hoffer hreserved
    cases hdecode : decodePrimitive w with
    | ok i =>
      obtain ⟨h1, h8, hdata⟩ := kind_of_decodePrimitive hdecode
      rcases hreserved with h0 | h9 | ⟨h5, hne⟩
      · rw [h0] at h1; exact absurd h1 (by decide)
      · exact absurd (BitVec.le_trans h9 h8) (by decide)
      · exact absurd (hdata h5) hne
    | error e => simp [step, fetch, hreset, hidle, hoffer, decode, hdecode]
  · intro hprim hcmd
    simp [step, fetch_eq_fetchCommand hreset hidle hprim, fetchCommand, hcmd]

/-! ### The one exception and the reset input -/

/-- Settles O8: a word that selects no row does not decode, and the exception is taken. -/
theorem illegalWordRespondsOne : Obligations.IllegalWordRespondsOne := by
  intro s w rest hreset hidle hprim hoffer hnone
  cases hdecode : decodeCommand w with
  | ok i =>
    rw [(decoderAcceptsTheSelectedWords w).1 ⟨i, hdecode⟩] at hnone
    cases hnone
  | error e =>
    have hfetch : fetch s = .illegal w { s with cmdIn := rest } := by
      simp [fetch_eq_fetchCommand hreset hidle hprim, fetchCommand, hoffer, decode, hdecode]
    simp only [step, hfetch]
    rfl

theorem step_of_resetPin {s : State} (h : s.resetPin = true) : step s = .next (applyReset s) := by
  simp [step, fetch, h]

/-- Settles O10: the reset input is served before anything else, and the registers are those it leaves. -/
theorem resetInputSetsEveryRegister : Obligations.ResetInputSetsEveryRegister := fun _ h =>
  ⟨_, step_of_resetPin h, rfl, rfl, rfl, rfl, rfl, rfl, rfl, rfl, rfl, rfl, rfl, rfl⟩

/-- Settles O11: the reset input leaves the environment, and between commands the bus too. -/
theorem resetLeavesTheOutsideAlone : Obligations.ResetLeavesTheOutsideAlone := by
  intro s h
  refine ⟨_, step_of_resetPin h, fun _ => rfl, rfl, rfl, rfl, rfl, rfl, rfl, fun hidle => ?_⟩
  simp [Bus.afterReset, hidle]

/-! ### A block that is busy -/

theorem step_of_busy {s : State} (hreset : s.resetPin = false) (hbusy : s.busy = true) :
    step s = .next (continueCommand s) := by
  simp [step, fetch, hreset, hbusy]

/-- A running command carries on without looking at the command channel. -/
theorem continueCommand_keeps_commandChannel (s : State) :
    (continueCommand s).cmdIn = s.cmdIn ∧ (continueCommand s).curCmd = s.curCmd := by
  refine run_keeps (fun t => t.cmdIn = s.cmdIn ∧ t.curCmd = s.curCmd) s.remaining
    (fun q t ht => ht) (fun nack t ht => by simpa using ht) (fun store dest _ t ht => ?_) (fun e _ t ht => ?_) s ⟨rfl, rfl⟩
  · exact readSample_keeps (P := fun t => t.cmdIn = s.cmdIn ∧ t.curCmd = s.curCmd)
      (fun nack t ht => by simpa using ht) (fun _ a v t ht => ht) (fun t ht => by simpa using ht) t ht
  · cases e <;> exact ht

/-- What a command has left begins with a primitive, so nothing happens while the bus does not complete it. -/
theorem run_remaining_dead (fifoN : BitVec 6) (n : Nat) (l : List Micro) {s : State} (hdead : s.bus.live = false) :
    run (remaining fifoN n l) s = s := by
  fun_induction remaining fifoN n l with
  | case1 => rfl
  | case2 n e l ih => exact ih
  | case3 n store dest l hn =>
    obtain ⟨k, hk⟩ := Nat.exists_eq_succ_of_ne_zero (Nat.sub_ne_zero_of_lt hn)
    rw [hk, run_sampleReads_succ]
    simp [hdead]
  | case4 n store dest l hn ih => exact ih
  | case5 n k store dest l hn =>
    obtain ⟨k, hk⟩ := Nat.exists_eq_succ_of_ne_zero (Nat.sub_ne_zero_of_lt hn)
    rw [hk, run_sampleReads_succ]
    simp [hdead]
  | case6 n k store dest l hn ih => exact ih
  | case7 q l => simp [run, hdead]
  | case8 l => simp [run, hdead]
  | case9 sel l => simp [run, hdead]
  | case10 n q l ih => exact ih
  | case11 n l ih => exact ih
  | case12 n sel l ih => exact ih

theorem continueCommand_dead {s : State} (hdead : s.bus.live = false) : continueCommand s = s := by
  unfold continueCommand State.remaining
  split
  · exact run_remaining_dead _ _ _ hdead
  · rfl

/-- An instruction of format C is a command with its pseudocode. -/
theorem exec_of_isCommand {i : Instr} (hi : i.isCommand = true) (s : State) :
    exec i s = command i (linesOf s.params i) s := by
  cases i with
  | busOpen | busStart | busRestart | busStop | busClose | wr | rda | rdn => cases hi
  | _ => rfl

/-- Settles O9: the step of a busy block goes on with its command, and a command is not accepted. -/
theorem busyBlockAcceptsNothing : Obligations.BusyBlockAcceptsNothing := by
  intro s hreset hbusy
  refine ⟨⟨_, step_of_busy hreset hbusy, continueCommand_keeps_commandChannel s⟩, fun hdead => ?_, fun i hi => ?_⟩
  · rw [step_of_busy hreset hbusy, continueCommand_dead hdead]
  · rw [exec_of_isCommand hi, command, if_pos hbusy]

end Sys2Proof.Machine
end

section
/-! PROOFS. Frames: which instruction's pseudocode holds which action, and so which registers it can write, over every
state and wherever the bus stops (R11 to R24, R47). -/

namespace Sys2Proof.Machine

/-! ### The actions and bursts of each command -/

/-- The instructions whose pseudocode holds an action between its framed operations. -/
def Action.OwnedBy (e : Action) (i : Instr) : Prop :=
  match e with
  | .setSess _ => False
  | .setFsm _ => (∃ a b, i = .startup a b) ∨ i = .standby
  | .cacheConfig a b => i = .startup a b
  | .latchPresent => i = .verifyId
  | .latchTap => i = .readTap ∨ ∃ a b, i = .enableInt a b
  | .latchOrient => i = .readOrient ∨ ∃ a b, i = .enableInt a b
  | .saveAct => ∃ a b, i = .enableInt a b
  | .latchFifoLen => i = .readFifoLen
  | .latchFifoStatus _ => (∃ store a dest, i = .readFifo store a dest) ∨ ∃ a b, i = .enableInt a b
  | .arm => ∃ a b, i = .enableInt a b
  | .reply _ => True

/-- The action of a line, if it is one. -/
def Line.action? : Line → Option Action
  | .act e => some e
  | .op _ => none
  | .samples _ _ => none

/-- The sample loop of a line, if it is one. -/
def Line.samples? : Line → Option (Bool × Addr)
  | .samples store dest => some (store, dest)
  | .op _ => none
  | .act _ => none

theorem linesOf_readFifo_zero (p : Params) (store : Bool) (dest : Addr) :
    linesOf p (.readFifo store 0 dest) = [.act (.reply .zero)] := rfl

theorem linesOf_readFifo (p : Params) (store : Bool) {a : Byte} (dest : Addr) (ha : a ≠ 0) :
    linesOf p (.readFifo store a dest) = fifoBurst p store dest a ++ [.act (.reply .fifoN)] := if_neg ha

/-- The actions of each command's pseudocode, and that the command owns them. -/
theorem linesOf_actions_owned (p : Params) (i : Instr) :
    ∀ e ∈ (linesOf p i).filterMap Line.action?, e.OwnedBy i := by
  cases i with
  | verifyId =>
    show ∀ e ∈ [Action.latchPresent, .reply .present], _
    simp [Action.OwnedBy]
  | startup a b =>
    show ∀ e ∈ [Action.setFsm .configuring, .cacheConfig a b, .setFsm .active, .reply .zero], _
    simp [Action.OwnedBy]
  | standby =>
    show ∀ e ∈ [Action.setFsm .standby, .reply .zero], _
    simp [Action.OwnedBy]
  | enableInt a b =>
    show ∀ e ∈ [Action.saveAct, .latchFifoStatus p.fifoDepth, .latchTap, .latchOrient, .arm, .reply .zero], _
    simp [Action.OwnedBy]
  | readFifoLen =>
    show ∀ e ∈ [Action.latchFifoLen, .reply .fifoF], _
    simp [Action.OwnedBy]
  | readFifo store a dest =>
    by_cases ha : a = 0
    · subst ha
      show ∀ e ∈ [Action.reply .zero], _
      simp [Action.OwnedBy]
    · rw [linesOf_readFifo p store dest ha]
      show ∀ e ∈ [Action.latchFifoStatus a, .reply .fifoN], _
      simp [Action.OwnedBy]
  | readTap =>
    show ∀ e ∈ [Action.latchTap, .reply .readByte], _
    simp [Action.OwnedBy]
  | readOrient =>
    show ∀ e ∈ [Action.latchOrient, .reply .readByte], _
    simp [Action.OwnedBy]
  | readIntSrc =>
    show ∀ e ∈ [Action.reply .readByte], _
    simp [Action.OwnedBy]
  | getRate =>
    show ∀ e ∈ [Action.reply .rate], _
    simp [Action.OwnedBy]
  | getFreq =>
    show ∀ e ∈ [Action.reply .freq], _
    simp [Action.OwnedBy]
  | _ => nofun

/-- Each action stands in the pseudocode of its owners only. -/
theorem act_mem_linesOf {p : Params} {i : Instr} {e : Action} (h : Line.act e ∈ linesOf p i) : e.OwnedBy i :=
  linesOf_actions_owned p i e (List.mem_filterMap.2 ⟨_, h, rfl⟩)

/-- Sample loops stand in READ_FIFO and, discarding, in ENABLE_INT. -/
theorem samples_mem_linesOf {p : Params} {i : Instr} {store : Bool} {dest : Addr}
    (h : Line.samples store dest ∈ linesOf p i) :
    (∃ a, i = .readFifo store a dest) ∨ (store = false ∧ ∃ a b, i = .enableInt a b) := by
  have hmem : (store, dest) ∈ (linesOf p i).filterMap Line.samples? := List.mem_filterMap.2 ⟨_, h, rfl⟩
  cases i with
  | readFifo st a d =>
    by_cases ha : a = 0
    · subst ha; cases hmem
    · rw [linesOf_readFifo p st d ha] at hmem
      have hone : (store, dest) ∈ [(st, d)] := hmem
      cases List.mem_singleton.1 hone
      exact .inl ⟨a, rfl⟩
  | enableInt a b =>
    have hone : (store, dest) ∈ [(false, (0 : Addr))] := hmem
    cases List.mem_singleton.1 hone
    exact .inr ⟨rfl, a, b, rfl⟩
  | _ => cases hmem

/-! ### Registers that only actions write -/

/-- What neither acceptance nor a primitive nor a sample byte writes. -/
structure Registers where
  rate : Byte
  range : Byte
  freqChz : BitVec 17
  cacheWritten : Bool
  present : Bool
  tapStatus : Byte
  tapWritten : Bool
  orientStatus : Byte
  orientWritten : Bool
  fsm : Fsm
  savedAct : Byte
  fifoF : BitVec 6
  fifoN : BitVec 6
  irqArmed : Bool
  cmdIn : List CmdWord
  primIn : Option PrimWord
  resetPin : Bool
  lineA : IrqLine
  lineB : IrqLine
  params : Params

/-- Those registers of a state. -/
def State.registers (s : State) : Registers where
  rate := s.rate
  range := s.range
  freqChz := s.freqChz
  cacheWritten := s.cacheWritten
  present := s.present
  tapStatus := s.tapStatus
  tapWritten := s.tapWritten
  orientStatus := s.orientStatus
  orientWritten := s.orientWritten
  fsm := s.fsm
  savedAct := s.savedAct
  fifoF := s.fifoF
  fifoN := s.fifoN
  irqArmed := s.irqArmed
  cmdIn := s.cmdIn
  primIn := s.primIn
  resetPin := s.resetPin
  lineA := s.lineA
  lineB := s.lineB
  params := s.params

theorem completeRead_registers (nack : Bool) (s : State) : (completeRead nack s).registers = s.registers := by
  cases nack <;> rfl

theorem nextSampleByte_registers (s : State) : (nextSampleByte s).registers = s.registers := by
  unfold nextSampleByte; split <;> rfl

theorem readSample_registers (store : Bool) (dest : Addr) (s : State) :
    (readSample store dest s).registers = s.registers :=
  readSample_keeps (P := fun t => t.registers = s.registers) (fun nack t h => (completeRead_registers nack t).trans h)
    (fun _ _ _ _ h => h) (fun t h => (nextSampleByte_registers t).trans h) s rfl

/-- A property of these registers that an instruction's actions keep is kept by the instruction. -/
theorem exec_keeps_registers (P : Registers → Prop) {i : Instr} {s t : State} (h : exec i s = .next t)
    (h0 : P s.registers)
    (hact : ∀ e : Action, e.OwnedBy i → ∀ s' : State, P s'.registers → P (e.apply s').registers) : P t.registers :=
  exec_keeps (fun t => P t.registers) h h0 (fun h => h) (fun _ _ h => h)
    (fun nack s' h => (completeRead_registers nack s').symm ▸ h)
    (fun store dest _ s' h => (readSample_registers store dest s').symm ▸ h) (fun _ _ h => h)
    (fun e he => hact e (act_mem_linesOf he))

/-! ### The frame statements -/

/-- Settles O40: `cacheConfig` is STARTUP's alone. -/
theorem onlyStartupWritesTheConfiguration : Obligations.OnlyStartupWritesTheConfiguration := by
  intro i s t hi h
  refine exec_keeps_registers (fun r => r.rate = s.rate ∧ r.range = s.range ∧ r.freqChz = s.freqChz ∧
    r.cacheWritten = s.cacheWritten) h ⟨rfl, rfl, rfl, rfl⟩ fun e he s' hs' => ?_
  cases e with
  | cacheConfig a b => exact absurd he (hi a b)
  | _ => exact hs'

/-- Settles O41: `latchPresent` is VERIFY_ID's alone. -/
theorem onlyVerifyIdWritesPresent : Obligations.OnlyVerifyIdWritesPresent := by
  intro i s t hi h
  refine exec_keeps_registers (fun r => r.present = s.present) h rfl fun e he s' hs' => ?_
  cases e with
  | latchPresent => exact absurd he hi
  | _ => exact hs'

/-- Settles O42: `setFsm` is STARTUP's and STANDBY's. -/
theorem onlyStartupAndStandbyChangeFsm : Obligations.OnlyStartupAndStandbyChangeFsm := by
  intro i s t hstartup hstandby h
  refine exec_keeps_registers (fun r => r.fsm = s.fsm) h rfl fun e he s' hs' => ?_
  cases e with
  | setFsm x =>
    obtain ⟨a, b, hi⟩ | hi := he
    · exact absurd hi (hstartup a b)
    · exact absurd hi hstandby
  | _ => exact hs'

/-- Settles O43: `latchTap` is READ_TAP's and ENABLE_INT's, `latchOrient` READ_ORIENT's and ENABLE_INT's. -/
theorem onlyTheReadersWriteTheSnapshots : Obligations.OnlyTheReadersWriteTheSnapshots := by
  intro i s t henable h
  constructor <;> intro hi
  · refine exec_keeps_registers (fun r => r.tapStatus = s.tapStatus ∧ r.tapWritten = s.tapWritten) h ⟨rfl, rfl⟩
      fun e he s' hs' => ?_
    cases e with
    | latchTap =>
      obtain hi' | ⟨a, b, hi'⟩ := he
      · exact absurd hi' hi
      · exact absurd hi' (henable a b)
    | _ => exact hs'
  · refine exec_keeps_registers (fun r => r.orientStatus = s.orientStatus ∧ r.orientWritten = s.orientWritten) h
      ⟨rfl, rfl⟩ fun e he s' hs' => ?_
    cases e with
    | latchOrient =>
      obtain hi' | ⟨a, b, hi'⟩ := he
      · exact absurd hi' hi
      · exact absurd hi' (henable a b)
    | _ => exact hs'

/-- Settles O44: `arm` and `saveAct` are ENABLE_INT's alone, and `arm` sets `irq_armed`. -/
theorem onlyEnableIntArms : Obligations.OnlyEnableIntArms := by
  intro i s t h
  constructor
  · intro henable
    obtain ⟨harmed, hA, hB, hsaved⟩ := exec_keeps_registers (fun r => r.irqArmed = s.irqArmed ∧ r.lineA = s.lineA ∧
      r.lineB = s.lineB ∧ r.savedAct = s.savedAct) h ⟨rfl, rfl, rfl, rfl⟩ fun e he s' hs' => by
        cases e with
        | arm | saveAct =>
          obtain ⟨a, b, hi⟩ := he
          exact absurd hi (henable a b)
        | _ => exact hs'
    exact ⟨⟨harmed, hA, hB⟩, hsaved⟩
  · intro harmed
    refine exec_keeps_registers (fun r => r.irqArmed = true) h harmed fun e _ s' hs' => ?_
    cases e with
    | arm => rfl
    | _ => exact hs'

/-- Settles O45: `latchFifoLen` is READ_FIFO_LEN's, and the burst's actions and loop stand in READ_FIFO and ENABLE_INT
only. -/
theorem onlyFifoCommandsWriteTheScratch : Obligations.OnlyFifoCommandsWriteTheScratch := by
  intro i s t henable hfifo h
  constructor
  · intro hi
    refine exec_keeps_registers (fun r => r.fifoF = s.fifoF) h rfl fun e he s' hs' => ?_
    cases e with
    | latchFifoLen => exact absurd he hi
    | latchFifoStatus n =>
      obtain ⟨st, a, d, hi'⟩ | ⟨a, b, hi'⟩ := he
      · exact absurd hi' (hfifo st a d)
      · exact absurd hi' (henable a b)
    | _ => exact hs'
  · refine exec_keeps (fun t => t.fifoN = s.fifoN ∧ t.sampI = s.sampI ∧ t.byteK = s.byteK) h ⟨rfl, rfl, rfl⟩
      (fun h => h) (fun _ _ h => h) (fun nack s' h => by simpa using h) (fun store dest hs => ?_) (fun _ _ h => h)
      fun e he s' hs' => ?_
    · obtain ⟨a, hi⟩ | ⟨-, a, b, hi⟩ := samples_mem_linesOf hs
      · exact absurd hi (hfifo store a dest)
      · exact absurd hi (henable a b)
    · have howned := act_mem_linesOf he
      cases e with
      | latchFifoStatus n =>
        obtain ⟨st, a, d, hi'⟩ | ⟨a, b, hi'⟩ := howned
        · exact absurd hi' (hfifo st a d)
        · exact absurd hi' (henable a b)
      | _ => exact hs'

/-- A discarded sample byte leaves memory as it is. -/
theorem readSample_discard_mem (dest : Addr) (s : State) : (readSample false dest s).mem = s.mem :=
  readSample_keeps (P := fun t => t.mem = s.mem) (fun nack t h => by simpa using h) (fun hf => by cases hf)
    (fun t h => by simpa using h) s rfl

/-- Settles O46: only the storing loop stores, and it stands in a storing READ_FIFO. -/
theorem onlyStoringReadFifoWritesMemory : Obligations.OnlyStoringReadFifoWritesMemory := by
  intro i s t hi h
  have hmem : t.mem = s.mem := by
    refine exec_keeps (fun t => t.mem = s.mem) h rfl (fun h => h) (fun _ _ h => h) (fun nack s' h => by simpa using h)
      (fun store dest hs s' hs' => ?_) (fun _ _ h => h) fun e _ s' hs' => ?_
    · obtain ⟨a, hi'⟩ | ⟨rfl, -⟩ := samples_mem_linesOf hs
      · cases store with
        | true => exact absurd hi' (hi a dest)
        | false => exact (readSample_discard_mem dest s').trans hs'
      · exact (readSample_discard_mem dest s').trans hs'
    · cases e <;> exact hs'
  intro x
  rw [State.sampleByte, State.sampleByte, hmem]

end Sys2Proof.Machine
end

section
/-! PROOFS. What every step keeps: a property kept by a primitive, a store, the loop counters and each action is kept by
every command and every step. The trace grows, the inputs stay, and the local invariant holds (R5, R52, R60). -/

namespace Sys2Proof.Machine

/-! ### The parts that every command is made of -/

/-- A property that a primitive, a store, the loop counters and each action keep. -/
structure Kept (P : State → Prop) : Prop where
  prim : ∀ q s, P s → P (completePrim q s)
  store : ∀ a v s, P s → P (storeSample a v s)
  next : ∀ s, P s → P (nextSampleByte s)
  act : ∀ (e : Action) s, P s → P (e.apply s)

section

variable {P : State → Prop}

/-- A completed read is a primitive and, after a not-acknowledged byte, a change of the session state. -/
theorem Kept.read (hP : Kept P) (nack : Bool) (s : State) (h : P s) : P (completeRead nack s) := by
  cases nack with
  | false => exact hP.prim _ s h
  | true => exact hP.act (.setSess .rdone) _ (hP.prim _ s h)

theorem Kept.sample (hP : Kept P) (store : Bool) (dest : Addr) (s : State) (h : P s) : P (readSample store dest s) :=
  readSample_keeps hP.read (fun _ => hP.store) hP.next s h

theorem Kept.run (hP : Kept P) (l : List Micro) (s : State) (h : P s) : P (run l s) :=
  run_keeps P l hP.prim hP.read (fun store dest _ => hP.sample store dest) (fun e _ => hP.act e) s h

theorem Kept.exec (hP : Kept P) {i : Instr} {s t : State} (h : exec i s = .next t) (h0 : P s)
    (haccept : P s → P (accept i s)) : P t :=
  exec_keeps P h h0 haccept hP.prim hP.read (fun store dest _ => hP.sample store dest)
    (fun x => hP.act (.setSess x)) (fun e _ => hP.act e)

end

/-! ### The trace and the inputs -/

/-- The parameters are those of `s`, and the trace is that of `s` with records appended. -/
def Grown (s t : State) : Prop := t.params = s.params ∧ s.trace <+: t.trace

theorem grown_refl (s : State) : Grown s s := ⟨rfl, List.prefix_refl _⟩

theorem Grown.append {s t u : State} {l : List Record} (h : Grown s t) (hp : u.params = t.params)
    (ht : u.trace = t.trace ++ l) : Grown s u :=
  ⟨hp.trans h.1, ht ▸ h.2.trans (List.prefix_append _ _)⟩

theorem kept_grown (s : State) : Kept (Grown s) where
  prim _ _ h := h.append rfl rfl
  store _ _ _ h := h.append rfl rfl
  next t h := h.append (l := []) (nextSampleByte_params t) (by simp)
  act e t h := by
    cases e with
    | arm | reply => exact h.append rfl rfl
    | _ => exact h

/-- A step appends records and leaves the parameters. -/
theorem step_grown {s t : State} (h : step s = .next t) : Grown s t := by
  rcases step_next h with ⟨-, rfl⟩ | ⟨-, -, rfl⟩ | ⟨-, -, rfl⟩ | ⟨-, -, -, w, rest, -, hw⟩ | ⟨-, -, w, i, -, -, hexec⟩
  · exact grown_refl s
  · exact (kept_grown s).run _ s (grown_refl s)
  · exact grown_refl t
  · obtain ⟨-, rfl⟩ | ⟨i, -, hexec⟩ := hw
    · exact (grown_refl s).append rfl rfl
    · exact (kept_grown s).exec hexec (grown_refl s) fun h => h
  · exact (kept_grown s).exec hexec (grown_refl s) fun h => h

/-- An instruction leaves what the host offers and the parameters. -/
theorem exec_sameInputs {i : Instr} {s t : State} (h : exec i s = .next t) : SameInputs s t :=
  exec_keeps_registers (fun r => r.params = s.params ∧ r.cmdIn = s.cmdIn ∧ r.primIn = s.primIn ∧
    r.resetPin = s.resetPin) h ⟨rfl, rfl, rfl, rfl⟩ fun e _ _ hs' => by cases e <;> exact hs'

/-- Settles O47: every part of a step appends records, and none writes the inputs. -/
theorem traceGrowsAndParametersStay : Obligations.TraceGrowsAndParametersStay := by
  refine ⟨fun s t h => ?_, fun i s t h => exec_sameInputs h⟩
  obtain ⟨hparams, l, hl⟩ := step_grown h
  exact ⟨hparams, l, hl.symm⟩

/-! ### The local invariant -/

/-- The cached rate is a rate code, its own effective rate (R72). -/
theorem effRate_cached (a : Byte) :
    ((effRate a).setWidth 8).toNat < 8 ∧ effRate ((effRate a).setWidth 8) = effRate a := by
  have hcode : ∀ k : BitVec 3, (k.setWidth 8 : Byte).toNat < 8 ∧ effRate (k.setWidth 8) = k := by decide
  exact hcode _

/-- Moving the loop counters on keeps `byte_k` below 6. -/
theorem nextSampleByte_byteK_lt {s : State} (h : s.byteK.toNat < 6) : (nextSampleByte s).byteK.toNat < 6 := by
  have hnext : ∀ k : BitVec 3, k.toNat < 6 → (if k = 5 then 0 else k + 1 : BitVec 3).toNat < 6 := by decide
  rw [nextSampleByte_byteK]
  exact hnext _ h

theorem kept_localInv : Kept LocalInv where
  prim q s h := by
    obtain ⟨hmem, hcache, hk, hupc, harm⟩ := h
    refine ⟨hmem, hcache, hk, fun (hidle : s.busy = false) => ?_, harm⟩
    rw [completePrim_upc, hidle]
    exact hupc hidle
  store a v s h := ⟨memWrite_wf h.1 a v, h.2⟩
  next s h := by
    obtain ⟨hmem, hcache, hk, hupc, harm⟩ := h
    refine ⟨?_, ?_, nextSampleByte_byteK_lt hk, ?_, ?_⟩ <;> simpa
  act e s h := by
    obtain ⟨hmem, hcache, hk, hupc, harm⟩ := h
    cases e with
    | cacheConfig a b =>
      obtain ⟨hlt, heff⟩ := effRate_cached a
      exact ⟨hmem, fun _ => ⟨hlt, congrArg freqOf heff.symm⟩, hk, hupc, harm⟩
    | latchFifoStatus n => exact ⟨hmem, hcache, Nat.zero_lt_succ 5, hupc, harm⟩
    | arm => exact ⟨hmem, hcache, hk, hupc, fun _ => ⟨rfl, rfl, rfl, rfl⟩⟩
    | reply v => exact ⟨hmem, hcache, hk, fun _ => rfl, harm⟩
    | _ => exact ⟨hmem, hcache, hk, hupc, harm⟩

theorem localInv_accept {s : State} (i : Instr) (h : LocalInv s) : LocalInv (accept i s) := by
  obtain ⟨hmem, hcache, hk, -, harm⟩ := h
  exact ⟨hmem, hcache, hk, fun _ => rfl, harm⟩

/-- The registers at reset, with any sample memory in canonical form, have the local invariant (R34). -/
theorem localInv_of_reset {s : State} (hmem : s.mem.wf = true) (hcache : s.cacheWritten = false) (hk : s.byteK = 0)
    (hupc : s.upc = 0) (harm : s.irqArmed = false) : LocalInv s := by
  refine ⟨hmem, fun h => ?_, by rw [hk]; decide, fun _ => hupc, fun h => ?_⟩
  · rw [hcache] at h; cases h
  · rw [harm] at h; cases h

/-- Settles O51: by cases on what the step has done; what a command does keeps the invariant part by part. -/
theorem stepKeepsLocalInv : Obligations.StepKeepsLocalInv := by
  intro s t hs h
  rcases step_next h with ⟨-, rfl⟩ | ⟨-, -, rfl⟩ | ⟨-, -, rfl⟩ | ⟨-, -, -, w, rest, -, hw⟩ | ⟨-, -, w, i, -, -, hexec⟩
  · exact localInv_of_reset hs.1 rfl rfl rfl rfl
  · exact kept_localInv.run _ s hs
  · exact hs
  · obtain ⟨-, rfl⟩ | ⟨i, -, hexec⟩ := hw
    · obtain ⟨hmem, hcache, hk, -, harm⟩ := hs
      exact ⟨hmem, hcache, hk, fun _ => rfl, harm⟩
    · exact kept_localInv.exec hexec hs (localInv_accept i)
  · exact kept_localInv.exec hexec hs (localInv_accept i)

/-- Settles O52: the reset state has the registers at reset and an empty sample memory. -/
theorem resetHasLocalInv : Obligations.ResetHasLocalInv := localInv_of_reset reset_mem_wf rfl rfl rfl rfl

end Sys2Proof.Machine
end

section
/-! PROOFS. Micro-steps one at a time: carrying out a list is a sequence of single steps that ends with nothing left or at
a primitive that the bus does not complete (R17, R52, R222). -/

namespace Sys2Proof.Machine

/-! ### One micro-step -/

/-- One micro-step of what is left, or one sample byte of a burst. -/
inductive MicroStep : List Micro × State → List Micro × State → Prop
  | act (e : Action) (l : List Micro) (s : State) : MicroStep (.act e :: l, s) (l, e.apply s)
  | issue (q : Prim) (l : List Micro) (s : State) (hlive : s.bus.live = true) :
      MicroStep (.issue q :: l, s) (l, completePrim q s)
  | writeSaved (l : List Micro) (s : State) (hlive : s.bus.live = true) :
      MicroStep (.writeSaved :: l, s) (l, completePrim (.wr s.savedAct) s)
  | read (sel : Sel) (l : List Micro) (s : State) (hlive : s.bus.live = true) :
      MicroStep (.read sel :: l, s) (l, readData sel s)
  | burst (store : Bool) (dest : Addr) (l : List Micro) (s : State) :
      MicroStep (.burst store dest :: l, s) (.sampleReads (sampleBytes s.fifoN) store dest :: l, s)
  | samplesDone (store : Bool) (dest : Addr) (l : List Micro) (s : State) :
      MicroStep (.sampleReads 0 store dest :: l, s) (l, s)
  | sample (n : Nat) (store : Bool) (dest : Addr) (l : List Micro) (s : State) (hlive : s.bus.live = true) :
      MicroStep (.sampleReads (n + 1) store dest :: l, s) (.sampleReads n store dest :: l, readSample store dest s)

/-- Any number of micro-steps. -/
abbrev Reaches : List Micro × State → List Micro × State → Prop := Relation.ReflTransGen MicroStep

theorem MicroStep.run_eq {c d : List Micro × State} (h : MicroStep c d) : run c.1 c.2 = run d.1 d.2 := by
  cases h with
  | act | burst | samplesDone => rfl
  | issue q l s hlive => exact run_issue q l hlive
  | writeSaved l s hlive => simp [run, hlive]
  | read sel l s hlive => simp [run, hlive]
  | sample n store dest l s hlive => simp [run_sampleReads_succ, hlive]

theorem Reaches.run_eq {c d : List Micro × State} (h : Reaches c d) : run c.1 c.2 = run d.1 d.2 := by
  induction h with
  | refl => rfl
  | tail _ hstep ih => exact ih.trans hstep.run_eq

/-! ### Waiting at a primitive -/

/-- What is left begins with a primitive. -/
def waiting : List Micro → Bool
  | .issue _ :: _ => true
  | .writeSaved :: _ => true
  | .read _ :: _ => true
  | .sampleReads n _ _ :: _ => n != 0
  | _ => false

/-- Carrying out a list ends with nothing left, or at a primitive that the bus does not complete. -/
def Stops (l : List Micro) (s : State) : Prop :=
  ∃ l', Reaches (l, s) (l', run l s) ∧ (l' = [] ∨ waiting l' = true ∧ (run l s).bus.live = false)

theorem stops_of_step {l l' : List Micro} {s s' : State} (hstep : MicroStep (l, s) (l', s')) (h : Stops l' s') :
    Stops l s := by
  have heq : run l s = run l' s' := hstep.run_eq
  obtain ⟨k, hreach, hend⟩ := h
  rw [Stops, heq]
  exact ⟨k, .head hstep hreach, hend⟩

theorem run_dead {l : List Micro} {s : State} (hwait : waiting l = true) (hdead : s.bus.live = false) : run l s = s := by
  match l with
  | .issue q :: l => exact run_issue_dead q l hdead
  | .writeSaved :: l => simp [run, hdead]
  | .read sel :: l => simp [run, hdead]
  | .sampleReads (n + 1) store dest :: l => simp [run_sampleReads_succ, hdead]

/-- At a primitive that the bus does not complete nothing happens. -/
theorem stops_dead {l : List Micro} {s : State} (hwait : waiting l = true) (hdead : s.bus.live = false) : Stops l s := by
  rw [Stops, run_dead hwait hdead]
  exact ⟨l, .refl, .inr ⟨hwait, hdead⟩⟩

/-- A primitive is carried out, or the block waits at it. -/
theorem stops_of_prim {l l' : List Micro} {s s' : State} (hwait : waiting l = true)
    (hstep : s.bus.live = true → MicroStep (l, s) (l', s')) (h : Stops l' s') : Stops l s := by
  cases hlive : s.bus.live with
  | true => exact stops_of_step (hstep hlive) h
  | false => exact stops_dead hwait hlive

theorem run_stops (l : List Micro) (s : State) : Stops l s := by
  induction l generalizing s with
  | nil => exact ⟨[], .refl, .inl rfl⟩
  | cons m l ih =>
    have hsamples : ∀ n store dest s, Stops (.sampleReads n store dest :: l) s := by
      intro n store dest
      induction n with
      | zero => exact fun s => stops_of_step (.samplesDone store dest l s) (ih s)
      | succ n ihn => exact fun s => stops_of_prim rfl (.sample n store dest l s) (ihn _)
    cases m with
    | act e => exact stops_of_step (.act e l s) (ih _)
    | issue q => exact stops_of_prim rfl (.issue q l s) (ih _)
    | writeSaved => exact stops_of_prim rfl (.writeSaved l s) (ih _)
    | read sel => exact stops_of_prim rfl (.read sel l s) (ih _)
    | burst store dest => exact stops_of_step (.burst store dest l s) (hsamples _ store dest s)
    | sampleReads n store dest => exact hsamples n store dest s

/-! ### The same micro-steps on a bus that completes everything -/

/-- `s` with a bus that completes everything. -/
def unbounded (s : State) : State := { s with bus := { s.bus with completes := none } }

theorem unbounded_live (s : State) : Live (unbounded s) := rfl

theorem apply_unbounded (e : Action) (s : State) : e.apply (unbounded s) = unbounded (e.apply s) := by
  cases e <;> rfl

theorem completeRead_unbounded (nack : Bool) (s : State) :
    completeRead nack (unbounded s) = unbounded (completeRead nack s) := by
  cases nack <;> rfl

theorem nextSampleByte_unbounded (s : State) : nextSampleByte (unbounded s) = unbounded (nextSampleByte s) := by
  rw [nextSampleByte_eq_withScratch, nextSampleByte_eq_withScratch s]; rfl

theorem readSample_unbounded (store : Bool) (dest : Addr) (s : State) :
    readSample store dest (unbounded s) = unbounded (readSample store dest s) := by
  have hread := completeRead_unbounded s.lastSampleByte s
  cases store with
  | false => exact (congrArg nextSampleByte hread).trans (nextSampleByte_unbounded _)
  | true =>
    have hstore := congrArg (fun t => storeSample (sampleAddr dest s.sampI s.byteK) t.readByte t) hread
    exact (congrArg nextSampleByte hstore).trans (nextSampleByte_unbounded
      (storeSample (sampleAddr dest s.sampI s.byteK) (completeRead s.lastSampleByte s).readByte
        (completeRead s.lastSampleByte s)))

theorem MicroStep.unbounded {c d : List Micro × State} (h : MicroStep c d) :
    MicroStep (c.1, Machine.unbounded c.2) (d.1, Machine.unbounded d.2) := by
  have hlive : ∀ s, (Machine.unbounded s).bus.live = true := fun s => live_of_none (unbounded_live s)
  cases h with
  | act e l s => exact apply_unbounded e s ▸ .act e l _
  | issue q l s => exact .issue q l _ (hlive s)
  | writeSaved l s => exact .writeSaved l _ (hlive s)
  | read sel l s => exact (completeRead_unbounded (sel.nacks (s.bus.supply s.params)) s) ▸ .read sel l _ (hlive s)
  | burst store dest l s => exact .burst store dest l _
  | samplesDone store dest l s => exact .samplesDone store dest l _
  | sample n store dest l s => exact readSample_unbounded store dest s ▸ .sample n store dest l _ (hlive s)

theorem Reaches.unbounded {c d : List Micro × State} (h : Reaches c d) :
    Reaches (c.1, Machine.unbounded c.2) (d.1, Machine.unbounded d.2) := by
  induction h with
  | refl => exact .refl
  | tail _ hstep ih => exact .tail ih hstep.unbounded

/-! ### The next primitive -/

theorem run_grown (l : List Micro) (s : State) : Grown s (run l s) := (kept_grown s).run l s (grown_refl s)

/-- A sample byte begins with its read. -/
theorem readSample_trace (store : Bool) (dest : Addr) (s : State) :
    ∃ q, s.trace ++ [.prim q] <+: (readSample store dest s).trace := by
  refine ⟨readPrim s.lastSampleByte (s.bus.supply s.params), ?_⟩
  cases store with
  | false => simp [readSample]
  | true => simp [readSample]

theorem run_trace_of_step {l l' : List Micro} {s s' : State} (hstep : MicroStep (l, s) (l', s'))
    (h : ∃ q, s.trace ++ [.prim q] <+: s'.trace) : ∃ q, s.trace ++ [.prim q] <+: (run l s).trace := by
  have heq : run l s = run l' s' := hstep.run_eq
  obtain ⟨q, hq⟩ := h
  rw [heq]
  exact ⟨q, hq.trans (run_grown l' s').2⟩

/-- At a primitive that the bus completes, its record is the next one. -/
theorem run_waiting_trace {l : List Micro} {s : State} (hwait : waiting l = true) (hlive : s.bus.live = true) :
    ∃ q, s.trace ++ [.prim q] <+: (run l s).trace := by
  match l with
  | .issue q :: l => exact run_trace_of_step (.issue q l s hlive) ⟨q, List.prefix_refl _⟩
  | .writeSaved :: l => exact run_trace_of_step (.writeSaved l s hlive) ⟨_, List.prefix_refl _⟩
  | .read sel :: l =>
    exact run_trace_of_step (.read sel l s hlive) ⟨_, by rw [readData, completeRead_trace]⟩
  | .sampleReads (n + 1) store dest :: l =>
    exact run_trace_of_step (.sample n store dest l s hlive) (readSample_trace store dest s)

end Sys2Proof.Machine
end

section
/-! PROOFS. A command under way: what is left of it is what `cur_cmd`, `upc` and `fifo_n` say, and it ends with the
response, its sessions closed. From this the command invariant (R17, R22, R53, R121, R149). -/

namespace Sys2Proof.Machine

/-! ### What every command's micro-steps have in common -/

/-- No status byte of a FIFO burst is left to be latched, so `fifo_n` stays. -/
def latchFree (l : List Micro) : Bool :=
  l.all fun
    | .act (.latchFifoStatus _) => false
    | _ => true

/-- The session that is open now is closed in the end. -/
def closes (l : List Micro) : Bool := sessAfter .rdone l == .closed

/-- What an action asks of what follows it: nothing after the response, and `fsm <- ACTIVE` after `fsm <- CONFIGURING`. -/
def Action.fits (e : Action) (l : List Micro) : Bool :=
  match e with
  | .reply _ => l.isEmpty
  | .setFsm x => !l.isEmpty && (x != .configuring || l.contains (.act (.setFsm .active)))
  | _ => !l.isEmpty

/-- Whether a micro-step issues primitives. -/
def Micro.isPrim : Micro → Bool
  | .act _ => false
  | _ => true

/-- What a micro-step asks of what follows it: the session of a last primitive is closed, and a command has one burst. -/
def Micro.fits (m : Micro) (l : List Micro) : Bool :=
  match m with
  | .act e => e.fits l
  | .burst _ _ => (l.any Micro.isPrim || closes l) && latchFree l
  | .sampleReads _ _ _ => (l.any Micro.isPrim || closes l) && latchFree l
  | _ => l.any Micro.isPrim || closes l

/-- Every micro-step is followed by what it asks for. -/
def orderly : List Micro → Bool
  | [] => true
  | m :: l => m.fits l && orderly l

theorem orderly_cons {m : Micro} {l : List Micro} (h : orderly (m :: l) = true) : m.fits l = true ∧ orderly l = true := by
  simpa [orderly] using h

/-- Every command is orderly, begins with something to do, and leaves the session of an idle block closed. -/
theorem orderly_expand (p : Params) {i : Instr} (hi : i.isCommand = true) :
    orderly (expand p (linesOf p i)) = true ∧ expand p (linesOf p i) ≠ [] ∧
      sessAfter .closed (expand p (linesOf p i)) = .closed := by
  cases i with
  | readFifo store a dest =>
    by_cases ha : a = 0
    · subst ha; exact ⟨rfl, nofun, rfl⟩
    · rw [linesOf_readFifo p store dest ha]; exact ⟨rfl, nofun, rfl⟩
  | busOpen | busStart | busRestart | busStop | busClose | wr | rda | rdn => cases hi
  | _ => exact ⟨rfl, nofun, rfl⟩

/-! ### Sessions are closed in the end -/

/-- Where a session is closed in the end, it is so whatever the session state now. -/
theorem sessAfter_of_ne {l : List Micro} {x : Sess} (hx : x ≠ .closed) (h : sessAfter x l = .closed) (y : Sess) :
    sessAfter y l = .closed := by
  induction l generalizing x y with
  | nil => exact absurd h hx
  | cons m l ih =>
    cases m with
    | act e =>
      cases e with
      | setSess z => exact h
      | _ => exact ih hx h y
    | _ => exact ih hx h y

theorem sessAfter_of_closes {l : List Micro} (h : closes l = true) (x : Sess) : sessAfter x l = .closed :=
  sessAfter_of_ne (by decide) (eq_of_beq h) x

theorem closes_cons (m : Micro) {l : List Micro} (h : closes l = true) : closes (m :: l) = true := by
  have hl := sessAfter_of_closes h
  refine beq_iff_eq.2 ?_
  cases m with
  | act e => cases e <;> exact hl _
  | _ => exact hl _

theorem fits_of_isPrim {m : Micro} {l : List Micro} (hm : m.isPrim = true) (h : m.fits l = true) :
    l.any Micro.isPrim = true ∨ closes l = true := by
  cases m with
  | act e => cases hm
  | burst | sampleReads => exact Bool.or_eq_true_iff.1 (Bool.and_eq_true_iff.1 h).1
  | _ => exact Bool.or_eq_true_iff.1 h

/-- Where a primitive is left, its session is closed after it. -/
theorem closes_of_any_isPrim {l : List Micro} (ho : orderly l = true) (h : l.any Micro.isPrim = true) :
    closes l = true := by
  induction l with
  | nil => cases h
  | cons m l ih =>
    obtain ⟨hfits, hl⟩ := orderly_cons ho
    obtain hm | hrest := Bool.or_eq_true_iff.1 h
    · obtain hany | hclose := fits_of_isPrim hm hfits
      · exact closes_cons m (ih hl hany)
      · exact closes_cons m hclose
    · exact closes_cons m (ih hl hrest)

theorem closes_after_prim {m : Micro} {l : List Micro} (ho : orderly (m :: l) = true) (hm : m.isPrim = true) :
    closes l = true := by
  obtain ⟨hfits, hl⟩ := orderly_cons ho
  obtain hany | hclose := fits_of_isPrim hm hfits
  · exact closes_of_any_isPrim hl hany
  · exact hclose

theorem sessAfter_of_waiting {l : List Micro} (ho : orderly l = true) (hwait : waiting l = true) (x : Sess) :
    sessAfter x l = .closed := by
  have hprim : l.any Micro.isPrim = true := by
    match l with
    | .issue _ :: _ | .writeSaved :: _ | .read _ :: _ | .sampleReads (_ + 1) _ _ :: _ => rfl
  exact sessAfter_of_closes (closes_of_any_isPrim ho hprim) x

/-! ### What is left after some primitives -/

/-- What is left after `n` primitives and `k` more. -/
theorem remaining_remaining (f : BitVec 6) (n k : Nat) (l : List Micro) :
    remaining f k (remaining f n l) = remaining f (n + k) l := by
  fun_induction remaining f n l with
  | case1 => rfl
  | case2 n e l ih => exact ih
  | case3 n store dest l hn =>
    simp only [remaining]
    by_cases hk : n + k < sampleBytes f
    · have hk' : k < sampleBytes f - n := by omega
      rw [if_pos hk, if_pos hk', Nat.sub_sub]
    · have hk' : ¬ k < sampleBytes f - n := by omega
      have hrest : k - (sampleBytes f - n) = n + k - sampleBytes f := by omega
      rw [if_neg hk, if_neg hk', hrest]
  | case4 n store dest l hn ih =>
    have hk : ¬ n + k < sampleBytes f := by omega
    have hrest : n - sampleBytes f + k = n + k - sampleBytes f := by omega
    rw [ih, hrest]
    simp only [remaining, if_neg hk]
  | case5 n j store dest l hn =>
    simp only [remaining]
    by_cases hk : n + k < j
    · have hk' : k < j - n := by omega
      rw [if_pos hk, if_pos hk', Nat.sub_sub]
    · have hk' : ¬ k < j - n := by omega
      have hrest : k - (j - n) = n + k - j := by omega
      rw [if_neg hk, if_neg hk', hrest]
  | case6 n j store dest l hn ih =>
    have hk : ¬ n + k < j := by omega
    have hrest : n - j + k = n + k - j := by omega
    rw [ih, hrest]
    simp only [remaining, if_neg hk]
  | case7 q l => rw [Nat.zero_add]
  | case8 l => rw [Nat.zero_add]
  | case9 sel l => rw [Nat.zero_add]
  | case10 n q l ih => rw [ih, Nat.succ_add]; rfl
  | case11 n l ih => rw [ih, Nat.succ_add]; rfl
  | case12 n sel l ih => rw [ih, Nat.succ_add]; rfl

theorem orderly_remaining (f : BitVec 6) (n : Nat) {l : List Micro} (h : orderly l = true) :
    orderly (remaining f n l) = true := by
  fun_induction remaining f n l with
  | case1 => rfl
  | case3 => exact h
  | case5 => exact h
  | case7 => exact h
  | case8 => exact h
  | case9 => exact h
  | case2 _ _ _ ih | case4 _ _ _ _ _ ih | case6 _ _ _ _ _ _ ih | case10 _ _ _ ih | case11 _ _ ih | case12 _ _ _ ih =>
    exact ih (orderly_cons h).2

/-- What is left begins with a primitive, if anything is left. -/
theorem waiting_remaining (f : BitVec 6) (n : Nat) (l : List Micro) :
    remaining f n l = [] ∨ waiting (remaining f n l) = true := by
  fun_induction remaining f n l with
  | case1 => exact .inl rfl
  | case3 _ _ _ _ hn => exact .inr (bne_iff_ne.2 (Nat.sub_ne_zero_of_lt hn))
  | case5 _ _ _ _ _ hn => exact .inr (bne_iff_ne.2 (Nat.sub_ne_zero_of_lt hn))
  | case7 => exact .inr rfl
  | case8 => exact .inr rfl
  | case9 => exact .inr rfl
  | case2 _ _ _ ih | case4 _ _ _ _ _ ih | case6 _ _ _ _ _ _ ih | case10 _ _ _ ih | case11 _ _ ih | case12 _ _ _ ih =>
    exact ih

theorem remaining_of_waiting (f : BitVec 6) {l : List Micro} (h : waiting l = true) : remaining f 0 l = l := by
  match l with
  | .issue _ :: _ => rfl
  | .writeSaved :: _ => rfl
  | .read _ :: _ => rfl
  | .sampleReads (n + 1) _ _ :: _ => rfl

theorem latchFree_cons {m : Micro} {l : List Micro} (h : latchFree (m :: l) = true) : latchFree l = true :=
  (Bool.and_eq_true_iff.1 h).2

theorem latchFree_remaining (f : BitVec 6) (n : Nat) {l : List Micro} (h : latchFree l = true) :
    latchFree (remaining f n l) = true := by
  fun_induction remaining f n l with
  | case1 => rfl
  | case3 => exact h
  | case5 => exact h
  | case7 => exact h
  | case8 => exact h
  | case9 => exact h
  | case2 _ _ _ ih | case4 _ _ _ _ _ ih | case6 _ _ _ _ _ _ ih | case10 _ _ _ ih | case11 _ _ ih | case12 _ _ _ ih =>
    exact ih (latchFree_cons h)

/-- After a burst no status byte is latched. -/
theorem latchFree_after_burst {m : Micro} {l : List Micro} (h : orderly (m :: l) = true)
    (hm : (∃ store dest, m = .burst store dest) ∨ ∃ n store dest, m = .sampleReads n store dest) :
    latchFree l = true := by
  obtain ⟨hfits, -⟩ := orderly_cons h
  obtain ⟨store, dest, rfl⟩ | ⟨n, store, dest, rfl⟩ := hm
  · exact (Bool.and_eq_true_iff.1 hfits).2
  · exact (Bool.and_eq_true_iff.1 hfits).2

/-- Before the status byte of its burst is latched, a command's position does not depend on `fifo_n`. -/
theorem remaining_eq_of_latch (f g : BitVec 6) (n : Nat) {l : List Micro} (ho : orderly l = true)
    (h : latchFree (remaining g n l) = false) : remaining f n l = remaining g n l := by
  fun_induction remaining g n l with
  | case1 => rfl
  | case2 n e l ih => exact ih (orderly_cons ho).2 h
  | case3 n store dest l hn =>
    have hl : latchFree l = true := latchFree_after_burst ho (.inl ⟨_, _, rfl⟩)
    exact Bool.noConfusion (hl.symm.trans h)
  | case4 n store dest l hn ih =>
    have hl := latchFree_remaining g (n - sampleBytes g) (latchFree_after_burst ho (.inl ⟨_, _, rfl⟩))
    exact Bool.noConfusion (hl.symm.trans h)
  | case5 n j store dest l hn =>
    have hl : latchFree l = true := latchFree_after_burst ho (.inr ⟨_, _, _, rfl⟩)
    exact Bool.noConfusion (hl.symm.trans h)
  | case6 n j store dest l hn ih =>
    have hl := latchFree_remaining g (n - j) (latchFree_after_burst ho (.inr ⟨_, _, _, rfl⟩))
    exact Bool.noConfusion (hl.symm.trans h)
  | case7 => rfl
  | case8 => rfl
  | case9 => rfl
  | case10 n q l ih => exact ih (orderly_cons ho).2 h
  | case11 n l ih => exact ih (orderly_cons ho).2 h
  | case12 n sel l ih => exact ih (orderly_cons ho).2 h

/-! ### A command under way -/

/-- The command with micro-steps `L` is running and has `l` left: that is what `upc` says of `L`, for the sample count
that `fifo_n` holds or, before that is latched, for every one. -/
structure Underway (L l : List Micro) (s : State) : Prop where
  orderly : orderly l = true
  nonempty : l ≠ []
  busy : s.busy = true
  closed : sessAfter s.sess l = .closed
  position : ∀ f, (latchFree l = true → f = s.fifoN) → remaining f s.upc L = remaining f 0 l

/-- The command with micro-steps `L` is under way, or has responded with nothing left to do. -/
def UnderwayOrDone (L : List Micro) (c : List Micro × State) : Prop :=
  Underway L c.1 c.2 ∨ c.1 = [] ∧ Responded c.2

/-- One primitive of those left has completed. -/
theorem Underway.after_prim {L l l' : List Micro} {m : Micro} {s s' : State} (h : Underway L (m :: l) s)
    (hclose : closes l' = true) (ho : Machine.orderly l' = true)
    (hlatch : latchFree l' = latchFree (m :: l)) (hrest : ∀ f, remaining f 1 (m :: l) = remaining f 0 l')
    (hbusy : s'.busy = s.busy) (hupc : s'.upc = s.upc + 1) (hfifoN : s'.fifoN = s.fifoN) : Underway L l' s' where
  orderly := ho
  nonempty := by rintro rfl; cases hclose
  busy := hbusy.trans h.busy
  closed := sessAfter_of_closes hclose _
  position f hf := by
    rw [hlatch, hfifoN] at hf
    rw [hupc, ← remaining_remaining, h.position f hf, remaining_remaining, Nat.zero_add, hrest]

/-- An action leaves the command under way, but for the response, which ends it. -/
theorem Underway.after_act {L l : List Micro} {e : Action} {s : State} (h : Underway L (.act e :: l) s) :
    UnderwayOrDone L (l, e.apply s) := by
  obtain ⟨hfits, ho⟩ := orderly_cons h.orderly
  cases e with
  | reply v =>
    obtain rfl : l = [] := List.isEmpty_iff.1 hfits
    exact .inr ⟨rfl, rfl, rfl, h.closed⟩
  | setFsm x =>
    have hne : l ≠ [] := by rintro rfl; cases hfits
    exact .inl ⟨ho, hne, h.busy, h.closed, h.position⟩
  | latchFifoStatus n =>
    have hne : l ≠ [] := by rintro rfl; cases hfits
    exact .inl ⟨ho, hne, h.busy, h.closed, fun f _ => h.position f fun hf => Bool.noConfusion hf⟩
  | _ =>
    have hne : l ≠ [] := by rintro rfl; cases hfits
    exact .inl ⟨ho, hne, h.busy, h.closed, h.position⟩

theorem readSample_upc (store : Bool) (dest : Addr) (s : State) :
    (readSample store dest s).upc = if s.busy then s.upc + 1 else s.upc := by
  cases store <;> simp [readSample]

theorem readSample_busy (store : Bool) (dest : Addr) (s : State) : (readSample store dest s).busy = s.busy := by
  cases store <;> simp [readSample]

/-- A micro-step leaves the command under way, or ends it. -/
theorem MicroStep.underway {L : List Micro} {c d : List Micro × State} (hstep : MicroStep c d)
    (h : Underway L c.1 c.2) : UnderwayOrDone L d := by
  have hupc : ∀ n, (if c.2.busy = true then n + 1 else n) = n + 1 := fun n => if_pos h.busy
  cases hstep with
  | act e l s => exact h.after_act
  | issue q l s hlive =>
    exact .inl (h.after_prim (closes_after_prim h.orderly rfl) (orderly_cons h.orderly).2 rfl (fun _ => rfl) rfl
      (hupc _) rfl)
  | writeSaved l s hlive =>
    exact .inl (h.after_prim (closes_after_prim h.orderly rfl) (orderly_cons h.orderly).2 rfl (fun _ => rfl) rfl
      (hupc _) rfl)
  | read sel l s hlive =>
    exact .inl (h.after_prim (closes_after_prim h.orderly rfl) (orderly_cons h.orderly).2 rfl (fun _ => rfl)
      (completeRead_busy ..) ((completeRead_upc ..).trans (hupc _)) (completeRead_fifoN ..))
  | burst store dest l s =>
    have hlatch : latchFree l = true := latchFree_after_burst h.orderly (.inl ⟨_, _, rfl⟩)
    refine .inl ⟨h.orderly, List.cons_ne_nil _ _, h.busy, h.closed, fun f hf => ?_⟩
    obtain rfl := hf hlatch
    rw [h.position _ fun _ => rfl]
    rfl
  | samplesDone store dest l s =>
    have hclose : closes l = true := closes_after_prim h.orderly rfl
    refine .inl ⟨(orderly_cons h.orderly).2, (by rintro rfl; cases hclose), h.busy, h.closed, fun f hf => ?_⟩
    exact h.position f hf
  | sample n store dest l s hlive =>
    have hrest : ∀ f, remaining f 1 (.sampleReads (n + 1) store dest :: l) =
        remaining f 0 (.sampleReads n store dest :: l) := by
      intro f
      cases n <;> simp [remaining]
    exact .inl (h.after_prim (closes_cons _ (closes_after_prim h.orderly rfl)) h.orderly rfl hrest
      (readSample_busy ..) ((readSample_upc ..).trans (hupc _)) (congrArg Registers.fifoN (readSample_registers ..)))

theorem Reaches.underway {L : List Micro} {c d : List Micro × State} (hreach : Reaches c d)
    (h : Underway L c.1 c.2) : UnderwayOrDone L d := by
  induction hreach with
  | refl => exact .inl h
  | @tail b d _ hstep ih =>
    obtain ih | ⟨hnil, -⟩ := ih
    · exact hstep.underway ih
    · obtain ⟨l, s⟩ := b
      obtain rfl : l = [] := hnil
      cases hstep

/-- A command under way goes on to its response, or to a primitive that the bus does not complete. -/
theorem run_underway {L l : List Micro} {s : State} (h : Underway L l s) :
    ∃ l', Reaches (l, s) (l', run l s) ∧
      (l' = [] ∧ Responded (run l s) ∨
        Underway L l' (run l s) ∧ waiting l' = true ∧ (run l s).bus.live = false) := by
  obtain ⟨l', hreach, hend⟩ := run_stops l s
  refine ⟨l', hreach, ?_⟩
  obtain hunder | hdone := hreach.underway h
  · obtain hnil | hwait := hend
    · exact absurd hnil hunder.nonempty
    · exact .inr ⟨hunder, hwait⟩
  · exact .inl hdone

/-! ### Where a command begins, and where it goes on -/

theorem decodeCommand_encodeCommand {i : Instr} (hi : i.isCommand = true) : decodeCommand (encodeCommand i) = .ok i := by
  have hdecode := decode_encode i
  cases i with
  | busOpen | busStart | busRestart | busStop | busClose | wr | rda | rdn => cases hi
  | _ => exact hdecode

theorem underway_accept {i : Instr} (hi : i.isCommand = true) {s : State} (hsess : s.sess = .closed) :
    Underway (expand s.params (linesOf s.params i)) (expand s.params (linesOf s.params i)) (accept i s) := by
  obtain ⟨ho, hne, hclosed⟩ := orderly_expand s.params hi
  exact ⟨ho, hne, rfl, hsess.symm ▸ hclosed, fun f _ => rfl⟩

theorem remaining_of_decode {i : Instr} {s : State} (hi : decodeCommand s.curCmd = .ok i) :
    s.remaining = remaining s.fifoN s.upc (expand s.params (linesOf s.params i)) := by
  simp only [State.remaining, hi]

/-- At a primitive, what a command has left is read off `cur_cmd`, `upc` and `fifo_n`. -/
theorem Underway.remaining_eq {i : Instr} {l : List Micro} {s : State} (hi : decodeCommand s.curCmd = .ok i)
    (h : Underway (expand s.params (linesOf s.params i)) l s) (hwait : waiting l = true) : s.remaining = l := by
  rw [remaining_of_decode hi, h.position s.fifoN fun _ => rfl, remaining_of_waiting _ hwait]

theorem isCommand_of_decodeCommand {w : CmdWord} {i : Instr} (h : decodeCommand w = .ok i) : i.isCommand = true := by
  have hw := encode_of_decodeCommand h
  cases i with
  | busOpen | busStart | busRestart | busStop | busClose | wr | rda | rdn => cases hw
  | _ => rfl

/-- A running command that has something left is under way. -/
theorem underway_resume {s : State} (hbusy : s.busy = true) (hne : s.remaining ≠ []) :
    ∃ i, decodeCommand s.curCmd = .ok i ∧
      Underway (expand s.params (linesOf s.params i)) s.remaining s := by
  cases hi : decodeCommand s.curCmd with
  | error e => simp [State.remaining, hi] at hne
  | ok i =>
    refine ⟨i, rfl, ?_⟩
    obtain ⟨ho, -, -⟩ := orderly_expand s.params (isCommand_of_decodeCommand hi)
    have hrem := remaining_of_decode hi
    generalize expand s.params (linesOf s.params i) = L at ho hrem
    have hor : orderly s.remaining = true := hrem ▸ orderly_remaining s.fifoN s.upc ho
    have hwait : waiting s.remaining = true := by
      rw [hrem] at hne ⊢
      exact (waiting_remaining _ _ _).resolve_left hne
    refine ⟨hor, hne, hbusy, sessAfter_of_waiting hor hwait _, fun f hf => ?_⟩
    rw [remaining_of_waiting f hwait]
    cases hlatch : latchFree s.remaining with
    | true => rw [hf hlatch, hrem]
    | false =>
      rw [hrem] at hlatch ⊢
      exact remaining_eq_of_latch f s.fifoN s.upc ho hlatch

/-! ### CONFIGURING ends before the command does (R121, R134) -/

/-- While `fsm` is CONFIGURING, `fsm <- ACTIVE` is still to be done. -/
def Settles (l : List Micro) (s : State) : Prop := s.fsm = .configuring → Micro.act (.setFsm .active) ∈ l

theorem Settles.tail {m : Micro} {l : List Micro} {s s' : State} (h : Settles (m :: l) s)
    (hm : m ≠ .act (.setFsm .active)) (hfsm : s'.fsm = s.fsm) : Settles l s' := fun hs =>
  List.mem_of_ne_of_mem hm.symm (h (hfsm ▸ hs))

theorem MicroStep.settles {c d : List Micro × State} (hstep : MicroStep c d) (ho : orderly c.1 = true)
    (h : Settles c.1 c.2) : Settles d.1 d.2 := by
  cases hstep with
  | act e l s =>
    obtain ⟨hfits, -⟩ := orderly_cons ho
    cases e with
    | setFsm x =>
      rintro rfl
      exact List.contains_iff_mem.1 (Bool.and_eq_true_iff.1 hfits).2
    | _ => exact h.tail nofun rfl
  | issue | writeSaved => exact h.tail nofun rfl
  | read sel l s hlive => exact h.tail nofun (completeRead_fsm ..)
  | burst store dest l s => exact fun hs => List.mem_cons_of_mem _ (h.tail nofun rfl hs)
  | samplesDone => exact h.tail nofun rfl
  | sample n store dest l s hlive =>
    have hfsm := congrArg Registers.fsm (readSample_registers store dest s)
    exact fun hs => List.mem_cons_of_mem _ (h.tail nofun hfsm hs)

theorem Reaches.settles {L : List Micro} {c d : List Micro × State} (hreach : Reaches c d) (h : Underway L c.1 c.2)
    (hs : Settles c.1 c.2) : Settles d.1 d.2 := by
  induction hreach with
  | refl => exact hs
  | @tail b d hprev hstep ih =>
    obtain hunder | ⟨hnil, -⟩ := Reaches.underway hprev h
    · exact hstep.settles hunder.orderly ih
    · obtain ⟨l, s⟩ := b
      obtain rfl : l = [] := hnil
      cases hstep

/-! ### The command invariant -/

theorem kept_command (w : CmdWord) (p : Params) : Kept (fun s => s.curCmd = w ∧ s.params = p) where
  prim _ _ h := h
  store _ _ _ h := h
  next s h := by simpa using h
  act e s h := by cases e <;> exact h

/-- A command under way leaves the command invariant, wherever the bus stops it. -/
theorem commandInv_run {i : Instr} {l : List Micro} {s : State} (hi : decodeCommand s.curCmd = .ok i)
    (h : Underway (expand s.params (linesOf s.params i)) l s) (hs : Settles l s) : CommandInv (run l s) := by
  obtain ⟨l', hreach, hend⟩ := run_underway h
  have hfsm : Settles l' (run l s) := hreach.settles h hs
  obtain ⟨hcmd, hparams⟩ := (kept_command s.curCmd s.params).run l s ⟨rfl, rfl⟩
  generalize run l s = t at *
  obtain ⟨rfl, hbusy, hupc, hsess⟩ | ⟨hunder, hwait, -⟩ := hend
  · refine ⟨fun _ => ⟨hupc, hsess, fun hc => ?_⟩, fun hb => ?_⟩
    · cases hfsm hc
    · rw [hbusy] at hb; cases hb
  · have hrem : t.remaining = l' := by
      rw [← hparams] at hunder
      exact hunder.remaining_eq (hcmd ▸ hi) hwait
    refine ⟨fun hb => ?_, fun _ => hrem.symm ▸ ⟨hunder.nonempty, hfsm⟩⟩
    rw [hunder.busy] at hb; cases hb

theorem commandInv_of_idle {s : State} (hbusy : s.busy = false) (hupc : s.upc = 0) (hsess : s.sess = .closed)
    (hfsm : s.fsm ≠ .configuring) : CommandInv s :=
  ⟨fun _ => ⟨hupc, hsess, hfsm⟩, fun hb => by rw [hbusy] at hb; cases hb⟩

/-- An instruction on an idle block leaves the command invariant. -/
theorem commandInv_exec {i : Instr} {s t : State} (hs : CommandInv s) (hidle : s.busy = false)
    (h : exec i s = .next t) : CommandInv t := by
  obtain ⟨hupc, hsess, hfsm⟩ := hs.1 hidle
  rcases exec_next h with ⟨-, q, rfl⟩ | ⟨hi, h⟩
  · rcases issuePrim_cases q s with ⟨-, e⟩ | ⟨-, e⟩ <;> rw [e]
    · refine commandInv_of_idle hidle ?_ hsess hfsm
      rw [completePrim_upc, hidle]
      exact hupc
    · exact hs
  · rw [command_idle _ _ ⟨hidle, hsess⟩] at h
    cases h
    exact commandInv_run (decodeCommand_encodeCommand hi) (underway_accept hi hsess) fun hc => absurd hc hfsm

/-- Settles O53: a running command goes on from where it is under way, and an idle block begins one. -/
theorem stepKeepsCommandInv : Obligations.StepKeepsCommandInv := by
  intro s t hs h
  rcases step_next h with ⟨-, rfl⟩ | ⟨-, hbusy, rfl⟩ | ⟨-, -, rfl⟩ | ⟨-, hidle, -, w, rest, -, hw⟩ |
    ⟨-, hidle, w, i, -, -, hexec⟩
  · exact commandInv_of_idle rfl rfl rfl nofun
  · obtain ⟨hne, hfsm⟩ := hs.2 hbusy
    obtain ⟨i, hi, hunder⟩ := underway_resume hbusy hne
    exact commandInv_run hi hunder hfsm
  · exact hs
  · obtain ⟨hupc, hsess, hfsm⟩ := hs.1 hidle
    obtain ⟨-, rfl⟩ | ⟨i, -, hexec⟩ := hw
    · exact commandInv_of_idle rfl rfl hsess hfsm
    · exact commandInv_exec (s := { s with cmdIn := rest }) hs hidle hexec
  · exact commandInv_exec (s := { s with primIn := none }) hs hidle hexec

/-- Settles O54: at reset the block is idle. -/
theorem resetHasCommandInv : Obligations.ResetHasCommandInv := commandInv_of_idle rfl rfl rfl nofun

/-! ### No step stops -/

/-- An idle block gives every instruction a next state. -/
theorem exec_of_idle (i : Instr) {s : State} (hidle : Idle s) : ∃ t, exec i s = .next t := by
  cases hi : i.isCommand with
  | true => exact ⟨_, (exec_of_isCommand hi s).trans (command_idle _ _ hidle)⟩
  | false =>
    obtain ⟨q, hexec⟩ := exec_of_not_isCommand hi s
    exact ⟨_, hexec⟩

theorem kept_primIn (w : Option PrimWord) : Kept (fun s => s.primIn = w) where
  prim _ _ h := h
  store _ _ _ h := h
  next s h := by simpa using h
  act e s h := by cases e <;> exact h

/-- Settles O55: with nothing on the primitive channel, what is fetched is a reset, a running command, a word that is
run by an idle block or answered as illegal, or nothing. -/
theorem stepNeverStops : Obligations.StepNeverStops := by
  intro s hs hprim
  cases hreset : s.resetPin with
  | true => exact ⟨_, step_of_resetPin hreset, hprim⟩
  | false =>
  cases hbusy : s.busy with
  | true => exact ⟨_, step_of_busy hreset hbusy, (kept_primIn none).run _ s hprim⟩
  | false =>
  have hfetch := fetch_eq_fetchCommand hreset hbusy hprim
  cases hoffer : s.cmdIn with
  | nil => exact ⟨s, by simp [step, hfetch, fetchCommand, hoffer], hprim⟩
  | cons w rest =>
  cases hdecode : decodeCommand w with
  | error e =>
    exact ⟨raiseIllegalCommand w { s with cmdIn := rest },
      by simp [step, hfetch, fetchCommand, hoffer, decode, hdecode], hprim⟩
  | ok i =>
    obtain ⟨-, hsess, -⟩ := hs.1 hbusy
    obtain ⟨t, hexec⟩ := exec_of_idle i (s := { s with cmdIn := rest }) ⟨hbusy, hsess⟩
    obtain ⟨-, -, hprim', -⟩ := exec_sameInputs hexec
    exact ⟨t, (stepRunsTheOfferedCommand s w rest i hreset hbusy hprim hoffer hdecode).trans hexec,
      hprim'.trans hprim⟩

end Sys2Proof.Machine
end

section
/-! PROOFS. The commands of one session, and those of none, on a bus that completes everything: the whole next state of
VERIFY_ID, STARTUP, STANDBY, READ_FIFO_LEN, the status readers and the accessors (R120, R124, R140, R152, R153, R160,
R165, R181 to R183). -/

namespace Sys2Proof.Machine

/-! ### An idle block -/

/-- The registers of an idle block that a command brings back to their values. -/
theorem exists_of_idle {s : State} (hidle : Idle s) : ∃ s0 : State, s = { s0 with busy := false, sess := .closed } := by
  obtain ⟨hbusy, hsess⟩ := hidle
  refine ⟨s, ?_⟩
  rw [← hbusy, ← hsess]

theorem exists_of_not_busy {s : State} (hidle : s.busy = false) : ∃ s0 : State, s = { s0 with busy := false } := by
  refine ⟨s, ?_⟩
  rw [← hidle]

/-- A command that opens no session is accepted in every session state (R100, R165). -/
theorem command_of_not_opensSession (i : Instr) {l : List Line} {s : State} (hl : opensSession l = false)
    (hidle : s.busy = false) : command i l s = .next (run (expand s.params l) (accept i s)) := by
  simp [command, hl, hidle]

/-! ### The one-register read session (R180) -/

/-- A one-register read session carries out its nine primitives. -/
theorem run_readReg (reg : Byte) (rest : List Micro) {s : State} (hlive : Live s) :
    run (expand s.params (readReg reg) ++ rest) s =
      run rest (carriedOut (readSession s.params reg (registerByte s reg)) .closed s) := by
  have hread := run_readByte reg (closingSteps ++ rest) hlive
  have hclose := run_closing rest (readHead s.params reg ++ [readPrim true (registerByte s reg)]) .rdone hlive
  exact hread.trans hclose

/-- The state in which a command has read register `reg` in a session of its own. -/
def registerRead (i : Instr) (reg : Byte) (s : State) : State :=
  carriedOut (readSession s.params reg (registerByte s reg)) .closed (accept i s)

/-- A command that reads one register and then does `acts`. -/
theorem exec_reader {i : Instr} {reg : Byte} {acts : List Line} {s : State} (hi : i.isCommand = true)
    (hlines : linesOf s.params i = readReg reg ++ acts) (hidle : Idle s) (hlive : Live s) :
    exec i s = .next (run (expand s.params acts) (registerRead i reg s)) := by
  have hrun := run_readReg reg (expand s.params acts) (s := accept i s) hlive
  rw [exec_of_isCommand hi, command_idle _ _ hidle, hlines, expand_append]
  exact congrArg Host.Outcome.next hrun

/-- The response of VERIFY_ID is the comparison as a number. -/
theorem setWidth_ofBool_beq (v c : Byte) :
    (BitVec.ofBool (v == c)).setWidth 32 = (if v = c then 1 else 0 : BitVec 32) := by
  by_cases h : v = c
  · rw [if_pos h, beq_iff_eq.2 h]; rfl
  · rw [if_neg h, beq_eq_false_iff_ne.2 h]; rfl

/-- Settles O18: the byte of `REG_ID` is read, compared and answered. -/
theorem verifyIdComparesTheIdentity : Obligations.VerifyIdComparesTheIdentity := by
  intro s hidle hlive
  rw [exec_reader rfl rfl hidle hlive, ← setWidth_ofBool_beq]
  obtain ⟨s0, rfl⟩ := exists_of_idle hidle
  rfl

/-- Settles O37: the byte of `REG_TAP_STATUS` is read, cached and answered. -/
theorem readTapCachesTheByte : Obligations.ReadTapCachesTheByte := by
  intro s hidle hlive v
  rw [exec_reader rfl rfl hidle hlive]
  obtain ⟨s0, rfl⟩ := exists_of_idle hidle
  rfl

/-- Settles O38: the byte of `REG_ORIENT_STATUS` is read, cached and answered. -/
theorem readOrientCachesTheByte : Obligations.ReadOrientCachesTheByte := by
  intro s hidle hlive v
  rw [exec_reader rfl rfl hidle hlive]
  obtain ⟨s0, rfl⟩ := exists_of_idle hidle
  rfl

/-- Settles O39: the byte of `REG_INT_SOURCE` is read and answered. -/
theorem readIntSrcAnswersTheByte : Obligations.ReadIntSrcAnswersTheByte := by
  intro s hidle hlive v
  rw [exec_reader rfl rfl hidle hlive]
  obtain ⟨s0, rfl⟩ := exists_of_idle hidle
  rfl

theorem fifoCount_setWidth (v : Byte) : (fifoCount v).setWidth 32 = (v &&& 0x3F).setWidth 32 := by
  apply BitVec.eq_of_toNat_eq
  rw [BitVec.toNat_setWidth, BitVec.toNat_setWidth, fifoCount_toNat]

theorem fifoCount_eq_extract (v : Byte) : fifoCount v = v.extractLsb' 0 6 := by
  ext i hi
  simp [fifoCount]

/-- Settles O30: the byte of `REG_STATUS` is read, and its low 6 bits are kept and answered. -/
theorem readFifoLenMasksTheCount : Obligations.ReadFifoLenMasksTheCount := by
  intro s hidle hlive v
  rw [exec_reader rfl rfl hidle hlive, ← fifoCount_setWidth, ← fifoCount_eq_extract]
  obtain ⟨s0, rfl⟩ := exists_of_idle hidle
  rfl

/-! ### The write sessions -/

/-- The session of STANDBY: one write of the 100 Hz activation value, the active bit clear (R140). -/
def standbySession (p : Params) : List Prim := writeSession p [(p.regAct, [actStandby p rate100])]

/-- On a bus that completes everything, STANDBY carries out its session and responds. -/
theorem exec_standby_live {s : State} (hidle : Idle s) (hlive : Live s) :
    exec .standby s = .next (respond 0 0
      (carriedOut (standbySession s.params) .closed { accept .standby s with fsm := .standby })) := by
  have hwrite := run_quiet (l := expand s.params (.op .sessOpen :: writeGroup s.params.regAct [actStandby s.params rate100]))
    rfl (.act (.setFsm .standby) :: (closingSteps ++ [.act (.reply .zero)])) (accept .standby s) (lasts_of_none _ hlive)
  have hclose := run_closing [.act (.reply .zero)]
    (issued (expand s.params (.op .sessOpen :: writeGroup s.params.regAct [actStandby s.params rate100]))) .wburst
    (s := { accept .standby s with fsm := .standby }) hlive
  rw [exec_of_isCommand rfl, command_idle _ _ hidle]
  exact congrArg Host.Outcome.next (hwrite.trans hclose)

/-- Settles O24: the session writes the data-rate field of 100 Hz with the active bit clear. -/
theorem standbyWritesTheHundredHertzValue : Obligations.StandbyWritesTheHundredHertzValue := by
  intro s hidle hlive
  rw [exec_standby_live hidle hlive]
  obtain ⟨s0, rfl⟩ := exists_of_idle hidle
  rfl

/-- Settles O19: the ten groups are sent, and the registers are those of the two update points. -/
theorem startupConfiguresAndActivates : Obligations.StartupConfiguresAndActivates := by
  intro a b s hidle hlive
  rw [exec_startup_live a b hidle hlive, ← effRate_setWidth]
  obtain ⟨s0, rfl⟩ := exists_of_idle hidle
  rfl

/-! ### No session -/

/-- Settles O31: with nothing to read the pseudocode is the response alone. -/
theorem readFifoOfZeroEntries : Obligations.ReadFifoOfZeroEntries := by
  intro store dest s hidle
  rw [exec_of_isCommand rfl, linesOf_readFifo_zero, command_of_not_opensSession _ rfl hidle]
  obtain ⟨s0, rfl⟩ := exists_of_not_busy hidle
  rfl

/-- A command that only answers `x` leaves the response, and `n` more draws. -/
theorem exec_accessor {i : Instr} {v : RespValue} {x : BitVec 32} {n : Nat} {s : State} (hi : i.isCommand = true)
    (hlines : linesOf s.params i = [.act (.reply v)]) (hidle : s.busy = false) (hvalue : v.value (accept i s) = x)
    (hdraws : v.draws (accept i s) = n) :
    exec i s = .next { s with
      curCmd := encodeCommand i, upc := 0, draws := s.draws + n, trace := s.trace ++ [.resp 0 x] } := by
  have hrun : run (expand s.params [.act (.reply v)]) (accept i s) =
      { respond 0 (v.value (accept i s)) (accept i s) with draws := s.draws + v.draws (accept i s) } := rfl
  rw [exec_of_isCommand hi, hlines, command_of_not_opensSession _ rfl hidle, hrun, hvalue, hdraws]
  obtain ⟨s0, rfl⟩ := exists_of_not_busy hidle
  rfl

/-- Once STARTUP has written the cache, the accessors answer the registers and draw nothing (R23). -/
theorem accessors_of_cacheWritten {s : State} (h : s.cacheWritten = true) :
    (RespValue.rate.value s = s.rate.setWidth 32 ∧ RespValue.rate.draws s = 0) ∧
      RespValue.freq.value s = s.freqChz.setWidth 32 ∧ RespValue.freq.draws s = 0 := by
  simp [RespValue.value, RespValue.draws, State.rateRead, State.freqRead, h]

/-- Before, they answer a free value and draw it (R23). -/
theorem accessors_of_not_cacheWritten {s : State} (h : s.cacheWritten = false) :
    (RespValue.rate.value s = (Config.freeRate s.draws).setWidth 32 ∧ RespValue.rate.draws s = 1) ∧
      RespValue.freq.value s = (Config.freeFreq s.draws).setWidth 32 ∧ RespValue.freq.draws s = 1 := by
  simp [RespValue.value, RespValue.draws, State.rateRead, State.freqRead, h]

/-- Settles O28: GET_RATE answers `rate`, or a free value while it holds none. -/
theorem getRateAnswersTheCache : Obligations.GetRateAnswersTheCache := by
  intro s hidle
  constructor <;> intro hcache
  · obtain ⟨⟨hvalue, hdraws⟩, -⟩ := accessors_of_cacheWritten (s := accept .getRate s) hcache
    exact exec_accessor rfl rfl hidle hvalue hdraws
  · obtain ⟨⟨hvalue, hdraws⟩, -⟩ := accessors_of_not_cacheWritten (s := accept .getRate s) hcache
    exact exec_accessor rfl rfl hidle hvalue hdraws

/-- Settles O29: GET_FREQ answers `freq_chz`, or a free value while it holds none. -/
theorem getFreqAnswersTheCache : Obligations.GetFreqAnswersTheCache := by
  intro s hidle
  constructor <;> intro hcache
  · obtain ⟨-, hvalue, hdraws⟩ := accessors_of_cacheWritten (s := accept .getFreq s) hcache
    exact exec_accessor rfl rfl hidle hvalue hdraws
  · obtain ⟨-, hvalue, hdraws⟩ := accessors_of_not_cacheWritten (s := accept .getFreq s) hcache
    exact exec_accessor rfl rfl hidle hvalue hdraws

end Sys2Proof.Machine
end

section
/-! PROOFS. The framed operations on their own, and the session grammar: each session is a path of it from outside to
outside, so every command on a bus that completes everything responds once with its sessions closed (R100 to R109). -/

namespace Sys2Proof.Machine

/-! ### R107's table -/

theorem framed_of_allowed {f : Framed} {s : State} (h : f.allowed s.sess = true) :
    framed f s = .next (run (f.micros s.params) s) := if_pos h

/-- A framed operation whose primitives are known beforehand carries them out. -/
theorem framed_quiet {f : Framed} {s : State} (hallowed : f.allowed s.sess = true)
    (hquiet : (f.micros s.params).all Micro.quiet = true) (hlive : Live s) :
    framed f s =
      .next (carriedOut (issued (f.micros s.params)) (sessAfter s.sess (f.micros s.params)) s) := by
  have hrun := run_quiet hquiet [] s (lasts_of_none _ hlive)
  rw [List.append_nil] at hrun
  exact (framed_of_allowed hallowed).trans (congrArg Host.Outcome.next hrun)

/-- A read returns the byte that the bus supplies, and is acknowledged as its selector says. -/
theorem framed_readData {sel : Sel} {s : State} (hsess : s.sess = .rburst) (hlive : Live s) :
    framed (.readData sel) s = .next (completeRead (sel.nacks (s.bus.supply s.params)) s) := by
  have hrun : run [.read sel] s = readData sel s := if_pos (live_of_none hlive)
  exact (framed_of_allowed (by rw [hsess]; rfl)).trans (congrArg Host.Outcome.next hrun)

/-- Settles O15: each operation but the reads has quiet micro-steps, whose primitives and session state are R107's. -/
theorem framedOperationsFollowTheTable : Obligations.FramedOperationsFollowTheTable := by
  intro s hlive
  refine ⟨fun hsess => ?_, fun hsess reg => ⟨?_, ?_⟩, fun hsess b => ?_, fun hsess => ⟨?_, ?_⟩, fun hsess => ⟨?_, ?_⟩⟩
  · exact ⟨_, framed_quiet (by rw [hsess]; rfl) rfl hlive, rfl, rfl⟩
  · exact ⟨_, framed_quiet (by rw [hsess]; rfl) rfl hlive, rfl, rfl⟩
  · exact ⟨_, framed_quiet (by rw [hsess]; rfl) rfl hlive, rfl, rfl⟩
  · exact ⟨_, framed_quiet (by rcases hsess with h | h <;> rw [h] <;> rfl) rfl hlive, rfl, rfl⟩
  · exact ⟨_, framed_readData hsess hlive, hsess, rfl, rfl⟩
  · exact ⟨_, framed_readData hsess hlive, rfl, rfl, rfl⟩
  · exact ⟨_, framed_quiet (by rcases hsess with h | h <;> rw [h] <;> rfl) rfl hlive, rfl, rfl⟩
  · exact ⟨_, framed_quiet (by rcases hsess with h | h <;> rw [h] <;> rfl) rfl hlive, rfl, rfl⟩

/-- R107's table, read by the operation. -/
theorem allowed_iff (f : Framed) (x : Sess) : f.allowed x = true ↔
    (x = .closed ∧ f = .sessOpen) ∨ (x = .ready ∧ ∃ r, f = .addrWrite r ∨ f = .addrRead r) ∨
      ((x = .waddr ∨ x = .wburst) ∧ ((∃ b, f = .writeData b) ∨ f = .writeSavedAct)) ∨
      (x = .rburst ∧ ∃ sel, f = .readData sel) ∨ ((x = .wburst ∨ x = .rdone) ∧ (f = .reopen ∨ f = .sessClose)) := by
  cases f <;> cases x <;> simp [Framed.allowed]

/-- Settles O16: a framed operation is refused when it is not allowed, and only then. -/
theorem protocolViolationsAreRefused : Obligations.ProtocolViolationsAreRefused := by
  intro f s
  rw [← allowed_iff]
  constructor
  · intro h hallowed
    rw [framed_of_allowed hallowed] at h
    cases h
  · intro h
    exact if_neg h

/-! ### Sessions in the grammar of R109 -/

section

variable (p : Params)

theorem shape_after_append {x y : Shape} {l : List Prim} (m : List Prim) (h : Shape.after p x l = some y) :
    Shape.after p x (l ++ m) = Shape.after p y m := by
  induction l generalizing x with
  | nil => cases h; rfl
  | cons q l ih =>
    simp only [Shape.after, List.cons_append] at h ⊢
    cases hq : x.next p q with
    | none => simp [hq] at h
    | some z =>
      simp only [hq] at h
      exact ih h

/-- What is left out at the end of a path leaves a path. -/
theorem shape_after_of_append {x y : Shape} {l m : List Prim} (h : Shape.after p x (l ++ m) = some y) :
    ∃ z, Shape.after p x l = some z := by
  induction l generalizing x with
  | nil => exact ⟨x, rfl⟩
  | cons q l ih =>
    simp only [Shape.after, List.cons_append] at h ⊢
    cases hq : x.next p q with
    | none => simp [hq] at h
    | some z =>
      simp only [hq] at h
      exact ih h

theorem shape_after_readHead (reg : Byte) : Shape.after p .outside (readHead p reg) = some .reading := by
  simp [readHead, Shape.after, Shape.next]

theorem shape_after_readBurst (v : Byte) (bs : List Byte) :
    Shape.after p .reading (readBurst (v :: bs)) = some .readDone := by
  induction bs generalizing v with
  | nil => rfl
  | cons w bs ih => exact ih w

/-- A FIFO burst session is a path, whatever its bytes are. -/
theorem shape_after_fifoSession (n : Byte) (b : Bus) :
    Shape.after p .outside (fifoSession p (fifoBytes p n b)) = some .outside := by
  obtain ⟨v, bs, hbytes⟩ : ∃ v bs, fifoBytes p n b = v :: bs := by
    apply List.exists_cons_of_ne_nil
    intro hnil
    have hlength := fifoBytes_length p n b
    rw [hnil, List.length_nil] at hlength
    omega
  rw [fifoSession, hbytes, List.append_assoc, shape_after_append p _ (shape_after_readHead p p.regStatus),
    shape_after_append p _ (shape_after_readBurst p v bs)]
  rfl

theorem shape_after_readSession (reg v : Byte) : Shape.after p .outside (readSession p reg v) = some .outside := by
  rw [readSession, shape_after_append p _ (shape_after_readHead p reg)]
  rfl

/-- Data bytes are written after a register address, and after one another. -/
theorem shape_after_data (b : Byte) (bs : List Byte) :
    Shape.after p .register ((b :: bs).map .wr) = some .writing := by
  have hmore : ∀ bs : List Byte, Shape.after p .writing (bs.map .wr) = some .writing := by
    intro bs
    induction bs with
    | nil => rfl
    | cons b bs ih => exact ih
  exact hmore bs

theorem shape_after_writeGroup (r b : Byte) (bs : List Byte) :
    Shape.after p .group (.wr (devW p) :: .wr r :: (b :: bs).map .wr) = some .writing := by
  have haddress : Shape.after p .group [.wr (devW p), .wr r] = some .register := by simp [Shape.after, Shape.next]
  exact (shape_after_append p ((b :: bs).map .wr) haddress).trans (shape_after_data p b bs)

/-- Write groups, each with a data byte, are a path from the beginning of a group. -/
theorem shape_after_writeGroups {gs : List (Byte × List Byte)} (hgs : gs ≠ []) (hdata : ∀ g ∈ gs, g.2 ≠ []) :
    Shape.after p .group (writeGroups p gs) = some .writing := by
  induction gs with
  | nil => exact absurd rfl hgs
  | cons g gs ih =>
    obtain ⟨r, bs⟩ := g
    obtain ⟨b, bs, rfl⟩ := List.exists_cons_of_ne_nil (hdata (r, bs) List.mem_cons_self)
    have hfirst := shape_after_writeGroup p r b bs
    cases gs with
    | nil => exact hfirst
    | cons g gs =>
      have hrest := ih (List.cons_ne_nil _ _) fun g' hg' => hdata g' (List.mem_cons_of_mem _ hg')
      exact (shape_after_append p (.busRestart :: writeGroups p (g :: gs)) hfirst).trans hrest

theorem shape_after_writeSession {gs : List (Byte × List Byte)} (hgs : gs ≠ []) (hdata : ∀ g ∈ gs, g.2 ≠ []) :
    Shape.after p .outside (writeSession p gs) = some .outside :=
  shape_after_append p [.busStop, .busClose] (shape_after_writeGroups p hgs hdata)

/-- ENABLE_INT's first session reads the activation byte in one group and writes in the others. -/
theorem shape_after_enableIntSession (a b act : Byte) :
    Shape.after p .outside (enableIntSession p a b act) = some .outside := by
  have hgroups : Shape.after p .group (writeGroups p (enableIntTable p a b act)) = some .writing :=
    shape_after_writeGroups p (List.cons_ne_nil _ _) (by simp [enableIntTable])
  rw [enableIntSession, List.append_assoc, List.append_assoc,
    shape_after_append p _ (shape_after_readHead p p.regAct)]
  exact shape_after_append p [.busStop, .busClose] hgroups

end

/-! ### Every command on a bus that completes everything -/

/-- From `s` to `t` the records `r` have been appended, a path of R109 from outside to outside without a response, and
after them the response `v` of code 0; the block is idle again. -/
structure RespondsWith (s t : State) (r : List Record) (v : BitVec 32) : Prop where
  trace : t.trace = s.trace ++ r ++ [.resp 0 v]
  noResponse : responsesOf r = []
  shape : Shape.after s.params .outside (primsOf r) = some .outside
  responded : Responded t

/-- A command whose records are primitives. -/
theorem respondsWith_prims {s t : State} {l : List Prim} {v : BitVec 32}
    (htrace : t.trace = s.trace ++ primRecords l ++ [.resp 0 v])
    (hshape : Shape.after s.params .outside l = some .outside) (hdone : Responded t) :
    RespondsWith s t (primRecords l) v :=
  ⟨htrace, responsesOf_primRecords l, by rw [primsOf_primRecords]; exact hshape, hdone⟩

/-- The four sessions of ENABLE_INT are a path. -/
theorem shape_after_clearingPrims (p : Params) (a b act : Byte) (bus : Bus) :
    Shape.after p .outside (clearingPrims p (enableIntSession p a b act) bus) = some .outside := by
  rw [clearingPrims, drainSession, List.append_assoc, List.append_assoc,
    shape_after_append p _ (shape_after_enableIntSession p a b act),
    shape_after_append p _ (shape_after_fifoSession p p.fifoDepth bus),
    shape_after_append p _ (shape_after_readSession p p.regTapStatus (tapByte p bus))]
  exact shape_after_readSession p p.regOrientStatus (orientByte p bus)

/-- ENABLE_INT arms after its last primitive, and then responds. -/
theorem exec_enableInt_records (a b : Byte) {s : State} (hidle : Idle s) (hlive : Live s) :
    ∃ t l, exec (.enableInt a b) s = .next t ∧ t.trace = s.trace ++ primRecords l ++ [.arm, .resp 0 0] ∧
      Shape.after s.params .outside l = some .outside ∧ Responded t := by
  obtain ⟨f, c, i, k, hexec⟩ := exec_enableInt_live a b hidle hlive
  generalize registerByte s s.params.regAct = act at hexec
  generalize busAfter s.params (enableIntSession s.params a b act) s.bus = bus at hexec
  obtain ⟨htrace, -, -, -, -, -, -, -, -, -, -, -, -, -, hdone⟩ := enableIntDone_registers a b
    (clearingPrims s.params (enableIntSession s.params a b act) bus) act (tapByte s.params bus) (orientByte s.params bus)
    f c i k s
  exact ⟨_, _, hexec, htrace, shape_after_clearingPrims s.params a b act bus, hdone⟩

theorem exec_enableInt_respondsWith (a b : Byte) {s : State} (hidle : Idle s) (hlive : Live s) :
    ∃ t r v, exec (.enableInt a b) s = .next t ∧ RespondsWith s t r v := by
  obtain ⟨t, l, hexec, htrace, hshape, hdone⟩ := exec_enableInt_records a b hidle hlive
  refine ⟨t, primRecords l ++ [.arm], 0, hexec, ?_, ?_, ?_, hdone⟩
  · rw [htrace]; simp
  · rw [responsesOf_append, responsesOf_primRecords]; rfl
  · rw [primsOf_append, primsOf_primRecords]
    exact (congrArg _ (List.append_nil l)).trans hshape

/-- On a bus that completes everything every command responds, after a path of R109. -/
theorem exec_live_respondsWith {i : Instr} {s : State} (hi : i.isCommand = true) (hidle : Idle s) (hlive : Live s) :
    ∃ t r v, exec i s = .next t ∧ RespondsWith s t r v := by
  have hread := fun reg => shape_after_readSession s.params reg (registerByte s reg)
  cases i with
  | verifyId =>
    exact ⟨_, _, _, exec_reader rfl rfl hidle hlive, respondsWith_prims rfl (hread _) ⟨rfl, rfl, rfl⟩⟩
  | readFifoLen =>
    exact ⟨_, _, _, exec_reader rfl rfl hidle hlive, respondsWith_prims rfl (hread _) ⟨rfl, rfl, rfl⟩⟩
  | readTap =>
    exact ⟨_, _, _, exec_reader rfl rfl hidle hlive, respondsWith_prims rfl (hread _) ⟨rfl, rfl, rfl⟩⟩
  | readOrient =>
    exact ⟨_, _, _, exec_reader rfl rfl hidle hlive, respondsWith_prims rfl (hread _) ⟨rfl, rfl, rfl⟩⟩
  | readIntSrc =>
    exact ⟨_, _, _, exec_reader rfl rfl hidle hlive, respondsWith_prims rfl (hread _) ⟨rfl, rfl, rfl⟩⟩
  | startup a b =>
    have hshape := shape_after_writeSession s.params (gs := startupTable s.params a b) (List.cons_ne_nil _ _)
      (by simp [startupTable])
    exact ⟨_, _, _, exec_startup_live a b hidle hlive, respondsWith_prims rfl hshape ⟨rfl, rfl, rfl⟩⟩
  | standby =>
    have hshape := shape_after_writeSession s.params (gs := [(s.params.regAct, [actStandby s.params rate100])])
      (List.cons_ne_nil _ _) (by simp)
    exact ⟨_, _, _, exec_standby_live hidle hlive, respondsWith_prims rfl hshape ⟨rfl, rfl, rfl⟩⟩
  | enableInt a b => exact exec_enableInt_respondsWith a b hidle hlive
  | readFifo store a dest =>
    by_cases ha : a = 0
    · subst ha
      exact ⟨_, [], 0, exec_readFifo_zero store dest hidle, by simp, rfl, rfl, rfl, rfl, hidle.2⟩
    · obtain ⟨i, k, hexec⟩ := exec_readFifo_live store dest ha hidle hlive
      refine ⟨_, burstRecords s.params store dest a s.bus, (fifoSamples s.params a s.bus).setWidth 32, hexec, ?_,
        responsesOf_burstRecords .., ?_, rfl, rfl, rfl⟩
      · rw [readFifoDone_trace, List.append_assoc]
      · rw [primsOf_burstRecords]
        exact shape_after_fifoSession s.params a s.bus
  | getRate =>
    exact ⟨_, [], RespValue.rate.value (accept .getRate s), exec_accessor rfl rfl hidle.1 rfl rfl, by simp, rfl, rfl,
      hidle.1, rfl, hidle.2⟩
  | getFreq =>
    exact ⟨_, [], RespValue.freq.value (accept .getFreq s), exec_accessor rfl rfl hidle.1 rfl rfl, by simp, rfl, rfl,
      hidle.1, rfl, hidle.2⟩
  | _ => cases hi

/-- Settles O48: what the records of each command are, its response among them. -/
theorem everyCommandRespondsOnce : Obligations.EveryCommandRespondsOnce := by
  intro i s hi hidle hlive
  obtain ⟨t, r, v, hexec, hr⟩ := exec_live_respondsWith hi hidle hlive
  exact ⟨t, r, v, hexec, hr.trace, hr.noResponse, hr.responded⟩

end Sys2Proof.Machine
end

section
/-! PROOFS. A command that the bus stops: what it has done is the beginning of what it does on a bus that completes
everything, and with such a bus it goes on to the same end (R17, R91, R109, R151, R170, R222). -/

namespace Sys2Proof.Machine

/-! ### What a command has recorded so far -/

/-- Since `s`, where a command was accepted, it has appended the records `r`: they tell its stores, count against the
bus's budget and, while it runs, are counted by `upc` and hold no response; without an ARM among them nothing is
armed. -/
structure Logged (s t : State) (r : List Record) : Prop where
  trace : t.trace = s.trace ++ r
  mem : t.mem = memAfter s.mem r
  budget : ∀ k, s.bus.completes = some k → ∃ j, t.bus.completes = some j ∧ j + (primsOf r).length = k
  running : t.busy = true → t.upc = (primsOf r).length ∧ responsesOf r = []
  arming : Record.arm ∉ r → SameArming s t

section

variable {s t : State} {r : List Record}

theorem logged_accept (i : Instr) (s : State) : Logged s (accept i s) [] :=
  ⟨(List.append_nil _).symm, rfl, fun k hk => ⟨k, hk, rfl⟩, fun _ => ⟨rfl, rfl⟩, fun _ => ⟨rfl, rfl, rfl⟩⟩

theorem Logged.prim (h : Logged s t r) (q : Prim) (hlive : t.bus.live = true) :
    Logged s (completePrim q t) (r ++ [.prim q]) where
  trace := by rw [completePrim_trace, h.trace, List.append_assoc]
  mem := by rw [memAfter_append, ← h.mem]; rfl
  budget k hk := by
    obtain ⟨j, hj, hsum⟩ := h.budget k hk
    rw [live_of_some hj] at hlive
    have hpos : j ≠ 0 := of_decide_eq_true hlive
    refine ⟨j - 1, by simp [hj], ?_⟩
    rw [primsOf_append, List.length_append]
    show j - 1 + ((primsOf r).length + 1) = k
    omega
  running hbusy := by
    obtain ⟨hupc, hresp⟩ := h.running hbusy
    refine ⟨?_, by rw [responsesOf_append, hresp]; rfl⟩
    rw [completePrim_upc, if_pos (show t.busy = true from hbusy), hupc, primsOf_append, List.length_append]
    rfl
  arming harm := h.arming fun hmem => harm (List.mem_append_left _ hmem)

theorem Logged.setSess (h : Logged s t r) (x : Sess) : Logged s { t with sess := x } r :=
  ⟨h.trace, h.mem, h.budget, h.running, h.arming⟩

theorem Logged.read (h : Logged s t r) (nack : Bool) (hlive : t.bus.live = true) :
    ∃ r', Logged s (completeRead nack t) r' := by
  cases nack with
  | false => exact ⟨_, h.prim _ hlive⟩
  | true => exact ⟨_, (h.prim _ hlive).setSess .rdone⟩

theorem Logged.store (h : Logged s t r) (a : Addr) (v : Byte) : Logged s (storeSample a v t) (r ++ [.mw a v]) where
  trace := by rw [storeSample_trace, h.trace, List.append_assoc]
  mem := by rw [memAfter_append, ← h.mem]; rfl
  budget k hk := by
    rw [primsOf_append, List.length_append]
    exact h.budget k hk
  running hbusy := by
    obtain ⟨hupc, hresp⟩ := h.running hbusy
    rw [primsOf_append, List.length_append, responsesOf_append, hresp]
    exact ⟨hupc, rfl⟩
  arming harm := h.arming fun hmem => harm (List.mem_append_left _ hmem)

theorem Logged.next (h : Logged s t r) : Logged s (nextSampleByte t) r := by
  rw [nextSampleByte_eq_withScratch]
  exact ⟨h.trace, h.mem, h.budget, h.running, h.arming⟩

theorem Logged.sample (h : Logged s t r) (store : Bool) (dest : Addr) (hlive : t.bus.live = true) :
    ∃ r', Logged s (readSample store dest t) r' := by
  obtain ⟨r', hread⟩ := h.read t.lastSampleByte hlive
  cases store with
  | false => exact ⟨_, hread.next⟩
  | true => exact ⟨_, (hread.store _ _).next⟩

theorem Logged.act (h : Logged s t r) (e : Action) : ∃ r', Logged s (e.apply t) r' := by
  cases e with
  | arm =>
    refine ⟨r ++ [.arm], ?_, ?_, ?_, fun hbusy => ?_, fun harm => absurd (List.mem_append_right _ List.mem_cons_self) harm⟩
    · rw [apply_arm, armIrq_trace, h.trace, List.append_assoc]
    · rw [memAfter_append, ← h.mem]; rfl
    · rw [primsOf_append, List.length_append]
      exact h.budget
    · obtain ⟨hupc, hresp⟩ := h.running hbusy
      rw [primsOf_append, List.length_append, responsesOf_append, hresp]
      exact ⟨hupc, rfl⟩
  | reply v =>
    refine ⟨r ++ [.resp 0 (v.value t)], ?_, ?_, ?_, nofun, fun harm =>
      h.arming fun hmem => harm (List.mem_append_left _ hmem)⟩
    · rw [← List.append_assoc, ← h.trace]; rfl
    · rw [memAfter_append, ← h.mem]; rfl
    · rw [primsOf_append, List.length_append]
      exact h.budget
  | _ => exact ⟨r, h.trace, h.mem, h.budget, h.running, h.arming⟩

end

theorem MicroStep.logged {s : State} {c d : List Micro × State} (hstep : MicroStep c d)
    (h : ∃ r, Logged s c.2 r) : ∃ r, Logged s d.2 r := by
  obtain ⟨r, h⟩ := h
  cases hstep with
  | act e => exact h.act e
  | issue q l t hlive => exact ⟨_, h.prim q hlive⟩
  | writeSaved l t hlive => exact ⟨_, h.prim _ hlive⟩
  | read sel l t hlive => exact h.read _ hlive
  | burst | samplesDone => exact ⟨r, h⟩
  | sample n store dest l t hlive => exact h.sample store dest hlive

theorem Reaches.logged {s : State} {c d : List Micro × State} (hreach : Reaches c d) (h : ∃ r, Logged s c.2 r) :
    ∃ r, Logged s d.2 r := by
  induction hreach with
  | refl => exact h
  | tail _ hstep ih => exact hstep.logged ih

/-! ### A stopped command beside the same command on a bus that completes everything -/

section

variable {i : Instr} {s t u : State}

theorem exec_eq_run (hi : i.isCommand = true) (hidle : Idle s) :
    exec i s = .next (run (expand s.params (linesOf s.params i)) (accept i s)) :=
  (exec_of_isCommand hi s).trans (command_idle _ _ hidle)

theorem exec_logged (hi : i.isCommand = true) (hidle : Idle s) (h : exec i s = .next t) : ∃ r, Logged s t r := by
  obtain ⟨l', hreach, -⟩ := run_stops (expand s.params (linesOf s.params i)) (accept i s)
  rw [exec_eq_run hi hidle] at h
  cases h
  exact hreach.logged ⟨[], logged_accept i s⟩

/-- A command has responded, and would have done the same with a bus that completes everything, or it waits at a primitive
from which such a bus would take it to the same end. -/
theorem exec_unbounded_cases (hi : i.isCommand = true) (hidle : Idle s) (h : exec i s = .next t)
    (hu : exec i (unbounded s) = .next u) :
    (t.busy = false ∧ u = unbounded t) ∨
      (t.busy = true ∧ t.bus.live = false ∧ waiting t.remaining = true ∧ u = run t.remaining (unbounded t)) := by
  have hexec := exec_eq_run hi hidle
  have hexecu : exec i (unbounded s) =
      .next (run (expand s.params (linesOf s.params i)) (unbounded (accept i s))) :=
    exec_eq_run hi (s := unbounded s) hidle
  rw [hexec] at h
  rw [hexecu] at hu
  cases h
  cases hu
  obtain ⟨l', hreach, hend⟩ := run_underway (underway_accept hi hidle.2)
  obtain ⟨hcmd, hparams⟩ := (kept_command (encodeCommand i) s.params).run
    (expand s.params (linesOf s.params i)) (accept i s) ⟨rfl, rfl⟩
  have heq : run (expand s.params (linesOf s.params i)) (unbounded (accept i s)) =
      run l' (unbounded (run (expand s.params (linesOf s.params i)) (accept i s))) := hreach.unbounded.run_eq
  rw [heq]
  generalize run (expand s.params (linesOf s.params i)) (accept i s) = t at *
  obtain ⟨rfl, hbusy, -⟩ | ⟨hunder, hwait, hdead⟩ := hend
  · exact .inl ⟨hbusy, rfl⟩
  · rw [← hparams] at hunder
    have hrem := hunder.remaining_eq (hcmd.symm ▸ decodeCommand_encodeCommand hi) hwait
    rw [hrem]
    exact .inr ⟨hunder.busy, hdead, hwait, rfl⟩

/-- The records of a command are those it makes on a bus that completes everything, or a beginning of them with a
primitive to follow. -/
theorem records_cases {r r' : List Record} (hi : i.isCommand = true) (hidle : Idle s) (h : exec i s = .next t)
    (hlog : Logged s t r) (hu : exec i (unbounded s) = .next u) (htrace : u.trace = s.trace ++ r') :
    (t.busy = false ∧ r = r') ∨ (t.busy = true ∧ ∃ q, r ++ [.prim q] <+: r') := by
  obtain ⟨hbusy, rfl⟩ | ⟨hbusy, -, hwait, rfl⟩ := exec_unbounded_cases hi hidle h hu
  · exact .inl ⟨hbusy, List.append_cancel_left (hlog.trace.symm.trans htrace)⟩
  · obtain ⟨q, hq⟩ := run_waiting_trace (s := unbounded t) hwait (live_of_none (unbounded_live t))
    have hprefix : s.trace ++ (r ++ [.prim q]) <+: s.trace ++ r' := by
      rw [← List.append_assoc, ← hlog.trace, ← htrace]
      exact hq
    exact .inr ⟨hbusy, q, (List.prefix_append_right_inj _).1 hprefix⟩

end

/-! ### Waiting and going on -/

/-- Settles O49: the records count the primitives that the bus's budget allowed, and a dead bus changes nothing. -/
theorem stuckCommandWaitsForEver : Obligations.StuckCommandWaitsForEver := by
  intro i k s t hi hidle hreset hk h hbusy
  obtain ⟨r, hlog⟩ := exec_logged hi hidle h
  obtain ⟨u, hu⟩ := exec_of_idle i (s := unbounded s) hidle
  obtain ⟨hidle', -⟩ | ⟨-, hdead, -, -⟩ := exec_unbounded_cases hi hidle h hu
  · rw [hbusy] at hidle'; cases hidle'
  obtain ⟨hupc, hresp⟩ := hlog.running hbusy
  obtain ⟨j, hj, hsum⟩ := hlog.budget k hk
  rw [live_of_some hj] at hdead
  have hzero : j = 0 := not_not.1 (of_decide_eq_false hdead)
  have hcount : (primsOf r).length = k := by omega
  obtain ⟨-, -, -, hpin⟩ := exec_sameInputs h
  refine ⟨hupc.trans hcount, ?_, r, hlog.trace, hresp, hcount⟩
  rw [step_of_busy (hpin.trans hreset) hbusy, continueCommand_dead]
  rw [live_of_some hj, hzero]; rfl

/-- Settles O50: with a bus that completes everything a stopped command goes on from its position to the same end. -/
theorem slowBusGivesTheSameResult : Obligations.SlowBusGivesTheSameResult := by
  intro i k s t hi hidle hreset _ h hbusy
  obtain ⟨u, hu⟩ := exec_of_idle i (s := unbounded s) hidle
  obtain ⟨hidle', -⟩ | ⟨-, -, -, hrun⟩ := exec_unbounded_cases hi hidle h hu
  · rw [hbusy] at hidle'; cases hidle'
  obtain ⟨-, -, -, hpin⟩ := exec_sameInputs h
  have hstep : step (unbounded t) = .next u := by
    rw [step_of_busy (s := unbounded t) (hpin.trans hreset) hbusy, hrun]; rfl
  exact ⟨u, hstep, hu⟩

/-- Settles O17: the primitives of a stopped command begin the path that it would take. -/
theorem commandsProduceSessionShapes : Obligations.CommandsProduceSessionShapes := by
  intro i s t hi hidle h
  obtain ⟨r, hlog⟩ := exec_logged hi hidle h
  obtain ⟨u, r', v, hu, hresp⟩ := exec_live_respondsWith hi (s := unbounded s) hidle (unbounded_live s)
  have htrace : u.trace = s.trace ++ (r' ++ [.resp 0 v]) := hresp.trace.trans (List.append_assoc ..)
  have hshape : Shape.after s.params .outside (primsOf (r' ++ [.resp 0 v])) = some .outside := by
    rw [primsOf_append, primsOf_resp, List.append_nil]
    exact hresp.shape
  obtain ⟨-, rfl⟩ | ⟨hbusy, q, rest, hq⟩ := records_cases hi hidle h hlog hu htrace
  · exact ⟨_, .outside, hlog.trace, hshape, fun _ => rfl⟩
  · rw [← hq, primsOf_append, primsOf_append, List.append_assoc] at hshape
    obtain ⟨x, hx⟩ := shape_after_of_append s.params hshape
    exact ⟨r, x, hlog.trace, hx, fun hidle' => by rw [hbusy] at hidle'; cases hidle'⟩

/-! ### ENABLE_INT stopped -/

/-- Records that a primitive follows stand before the records without one that end the list. -/
theorem prefix_of_prim_follows {r m : List Record} {l : List Prim} {q : Prim} (hm : primsOf m = [])
    (h : r ++ [.prim q] <+: primRecords l ++ m) : r <+: primRecords l := by
  have hr : r <+: primRecords l ++ m := (List.prefix_append _ _).trans h
  rcases Nat.le_total r.length (primRecords l).length with hle | hle
  · exact List.prefix_of_prefix_length_le hr (List.prefix_append _ _) hle
  · exfalso
    obtain ⟨x, rfl⟩ := List.prefix_of_prefix_length_le (List.prefix_append (primRecords l) m) hr hle
    obtain ⟨rest, hrest⟩ := h
    have hcount := congrArg (fun k => (primsOf k).length) hrest
    have hone : (primsOf [Record.prim q]).length = 1 := rfl
    simp only [primsOf_append, primsOf_primRecords, List.length_append, hm, hone, List.length_nil] at hcount
    omega

theorem arm_not_mem_primRecords (l : List Prim) : Record.arm ∉ primRecords l := by simp [primRecords]

/-- Settles O27: a stopped ENABLE_INT is short of its last primitive, and it arms after that. -/
theorem stuckEnableIntDoesNotArm : Obligations.StuckEnableIntDoesNotArm := by
  intro a b s t hidle h hbusy
  obtain ⟨r, hlog⟩ := exec_logged rfl hidle h
  obtain ⟨u, l, hu, htrace, -, -⟩ := exec_enableInt_records a b (s := unbounded s) hidle (unbounded_live s)
  have hrecords := records_cases rfl hidle h hlog hu (htrace.trans (List.append_assoc ..))
  obtain ⟨hidle', -⟩ | ⟨-, q, hq⟩ := hrecords
  · rw [hbusy] at hidle'; cases hidle'
  have harm : Record.arm ∉ r := fun hmem =>
    arm_not_mem_primRecords l ((prefix_of_prim_follows rfl hq).subset hmem)
  exact ⟨hlog.arming harm, r, hlog.trace, harm, (hlog.running hbusy).2⟩

/-! ### READ_FIFO stopped -/

/-- The stores of a burst are to its wire bytes' addresses. -/
theorem mw_mem_sampleRecords {store : Bool} {dest x : Addr} {w : Byte} {j : Nat} {bs : List Byte}
    (h : Record.mw x w ∈ sampleRecords store dest j bs) : ∃ k < bs.length, x = wireAddr dest (j + k) := by
  induction bs generalizing j with
  | nil => cases h
  | cons v bs ih =>
    rw [sampleRecords_cons, List.mem_append] at h
    obtain h | h := h
    · refine ⟨0, Nat.zero_lt_succ _, ?_⟩
      cases store with
      | false => simp [byteRecords] at h
      | true =>
        simp only [byteRecords, if_true, List.mem_cons, List.not_mem_nil, or_false, reduceCtorEq, false_or,
          Record.mw.injEq] at h
        exact h.1
    · obtain ⟨k, hk, hx⟩ := ih h
      refine ⟨k + 1, Nat.succ_lt_succ hk, ?_⟩
      rw [hx, Nat.add_assoc, Nat.add_comm 1]

theorem mw_mem_burstRecords {p : Params} {store : Bool} {dest x : Addr} {w : Byte} {n : Byte} {b : Bus}
    (h : Record.mw x w ∈ burstRecords p store dest n b) :
    ∃ j < 6 * (fifoSamples p n b).toNat, x = wireAddr dest j := by
  have hprims : ∀ l, Record.mw x w ∉ primRecords l := by simp [primRecords]
  rw [burstRecords, List.mem_append, List.mem_append] at h
  obtain (h | h) | h := h
  · exact absurd h (hprims _)
  · obtain ⟨k, hk, hx⟩ := mw_mem_sampleRecords h
    rw [fifoBytes_tail_length] at hk
    exact ⟨k, hk, by rw [hx, Nat.zero_add]⟩
  · exact absurd h (hprims _)

/-- The records of READ_FIFO on a bus that completes everything: at most the primitives of its session, and stores to its
wire bytes' addresses only. -/
theorem exec_readFifo_records (store : Bool) (a : Byte) (dest : Addr) {s : State} (hidle : Idle s) (hlive : Live s) :
    ∃ u r, exec (.readFifo store a dest) s = .next u ∧ u.trace = s.trace ++ r ∧
      (primsOf r).length ≤ 9 + 6 * (fifoSamples s.params a s.bus).toNat ∧
      ∀ x w, Record.mw x w ∈ r → ∃ j < 6 * (fifoSamples s.params a s.bus).toNat, x = wireAddr dest j := by
  by_cases ha : a = 0
  · subst ha
    exact ⟨_, [.resp 0 0], exec_readFifo_zero store dest hidle, rfl, Nat.zero_le _, by simp⟩
  · obtain ⟨i, k, hexec⟩ := exec_readFifo_live store dest ha hidle hlive
    refine ⟨_, _, hexec, readFifoDone_trace .., ?_, fun x w hmem => ?_⟩
    · rw [primsOf_append, primsOf_resp, List.append_nil, primsOf_burstRecords, fifoSession_fifoBytes_length]
    · obtain hmem | hmem := List.mem_append.1 hmem
      · exact mw_mem_burstRecords hmem
      · simp at hmem

/-- An address that no record stores to reads as before. -/
theorem memRead_memAfter_other {m : Memory} {r : List Record} {x : Addr} (h : ∀ w, Record.mw x w ∉ r) :
    memRead (memAfter m r) x.toNat = memRead m x.toNat := by
  induction r generalizing m with
  | nil => rfl
  | cons c r ih =>
    have hrest : ∀ w, Record.mw x w ∉ r := fun w hw => h w (List.mem_cons_of_mem _ hw)
    cases c with
    | mw y v =>
      have hne : x.toNat ≠ y.toNat := by
        intro heq
        obtain rfl := BitVec.eq_of_toNat_eq heq
        exact h v List.mem_cons_self
      exact (ih hrest).trans (memRead_memWrite_other m v hne)
    | _ => exact ih hrest

/-- Settles O34: a stopped READ_FIFO has made no other stores than it would have made in the end. -/
theorem readFifoNeverWritesBeyondTheBuffer : Obligations.ReadFifoNeverWritesBeyondTheBuffer := by
  intro store a dest s t hidle h
  refine ⟨fun x hx => ?_, fun hstore => ?_⟩
  · obtain ⟨r, hlog⟩ := exec_logged rfl hidle h
    obtain ⟨u, r', hu, htrace, -, hstores⟩ :=
      exec_readFifo_records store a dest (s := unbounded s) hidle (unbounded_live s)
    have hsubset : r ⊆ r' := by
      obtain ⟨-, rfl⟩ | ⟨-, q, hq⟩ := records_cases rfl hidle h hlog hu htrace
      · exact fun _ hmem => hmem
      · exact fun _ hmem => hq.subset (List.mem_append_left _ hmem)
    have hbound : (fifoSamples s.params a (unbounded s).bus).toNat ≤ min a.toNat 63 := by
      have hlt := (fifoSamples s.params a (unbounded s).bus).isLt
      exact Nat.le_min.2 ⟨minCount_toNat_le .., by omega⟩
    rw [State.sampleByte, State.sampleByte, hlog.mem]
    refine memRead_memAfter_other fun w hw => ?_
    obtain ⟨j, hj, hxj⟩ := hstores x w (hsubset hw)
    exact ne_wireAddr_of_beyond hj (Nat.le_trans (Nat.mul_le_mul_left 6 hbound) hx) hxj
  · subst hstore
    exact onlyStoringReadFifoWritesMemory _ s t (by simp) h

/-! ### The length of a FIFO burst -/

/-- A read burst acknowledges all its bytes but the last. -/
theorem readBurst_concat (bs : List Byte) (v : Byte) : readBurst (bs ++ [v]) = bs.map .rda ++ [.rdn v] := by
  induction bs with
  | nil => rfl
  | cons w bs ih =>
    have hmore : (bs ++ [v]).isEmpty = false := by cases bs <;> rfl
    rw [List.cons_append, readBurst_cons, hmore, ih]
    rfl

/-- Settles O36: the session of the burst is counted, and a stopped one is shorter. -/
theorem fifoBurstLength : Obligations.FifoBurstLength := by
  intro store a dest s hidle n
  refine ⟨fun ha hlive => ?_, fun t h => ?_, ?_⟩
  · obtain ⟨i, k, hexec⟩ := exec_readFifo_live store dest ha hidle hlive
    have hlength := fifoSession_fifoBytes_length s.params a s.bus
    have hbytes := fifoBytes_length s.params a s.bus
    have hprims : primsOf (burstRecords s.params store dest a s.bus ++
        [.resp 0 ((fifoSamples s.params a s.bus).setWidth 32)]) =
          fifoSession s.params (fifoBytes s.params a s.bus) := by
      rw [primsOf_append, primsOf_resp, List.append_nil, primsOf_burstRecords]
    obtain hnil | ⟨bs, v, hconcat⟩ := List.eq_nil_or_concat (fifoBytes s.params a s.bus)
    · rw [hnil, List.length_nil] at hbytes; omega
    rw [List.concat_eq_append] at hconcat
    refine ⟨_, _, bs, v, hexec, readFifoDone_trace .., ?_, ?_, hprims ▸ hlength⟩
    · rw [hprims, fifoSession, hconcat, readBurst_concat]; simp
    · rw [hconcat, List.length_append, List.length_singleton] at hbytes; omega
  · obtain ⟨r, hlog⟩ := exec_logged rfl hidle h
    obtain ⟨u, r', hu, htrace, hcount, -⟩ :=
      exec_readFifo_records store a dest (s := unbounded s) hidle (unbounded_live s)
    have hcount : (primsOf r').length ≤ 9 + 6 * n := hcount
    obtain ⟨hidle', rfl⟩ | ⟨hbusy, q, rest, rfl⟩ := records_cases rfl hidle h hlog hu htrace
    · exact ⟨⟨r, hlog.trace, hcount⟩, fun hbusy => by rw [hidle'] at hbusy; cases hbusy⟩
    · have hone : (primsOf [Record.prim q]).length = 1 := rfl
      rw [primsOf_append, primsOf_append, List.length_append, List.length_append, hone] at hcount
      obtain ⟨hupc, -⟩ := hlog.running hbusy
      exact ⟨⟨r, hlog.trace, by omega⟩, fun _ => by omega⟩
  · have hlt : n < 64 := (fifoSamples s.params a s.bus).isLt
    omega

end Sys2Proof.Machine
end
